-- ==== Sys2Proof/Word.lean ====
section
/-! DEFINITION. The one word type of the engine: a byte (00_scope.md R5, "Data width is fixed at 8 bits"; R6). -/

namespace Sys2Proof

/-- A byte: what one primitive transfer moves (R5). Bit 0 is the least significant (R6). -/
abbrev Byte := BitVec 8

end Sys2Proof
end

