-- ==== Sys2Proof/Config.lean ====
section
/-! DEFINITION. The parameters of 00_scope.md R5 that this spec fixes, the type of the parameter `REGMAP` with its default
(10_state.md R34), and the free values: constants without a body, one for each thing the spec leaves to a draw. -/

namespace Sys2Proof

/-- `CLOCK_BURST_LEN` (R5): bytes in a clock burst. -/
def Config.clockBurstLen : Nat := 8
/-- `RAM_SIZE` (R5): bytes of peripheral RAM. -/
def Config.ramSize : Nat := 31
/-- `RAM_BURST_LEN` (R5): bytes moved by one RAM burst. -/
def Config.ramBurstLen : Nat := 31
/-- `INIT_CONTROL_VALUE` (R5, R160): the byte the init policy writes to the control register. -/
def Config.initControlValue : Byte := 0x00
/-- `INIT_TRICKLE_VALUE` (R5, R160): the byte the init policy writes to the trickle-charge register. -/
def Config.initTrickleValue : Byte := 0x00

/-- `REGMAP` (R34): the write form of every register's and burst command's byte. `ramBytes` holds `RAM(0)` to `RAM(30)`, in order. -/
structure RegMap where
  seconds    : Byte
  minutes    : Byte
  hours      : Byte
  date       : Byte
  month      : Byte
  weekday    : Byte
  year       : Byte
  control    : Byte
  trickle    : Byte
  clockBurst : Byte
  ramBytes   : List Byte
  ramBurst   : Byte
  deriving DecidableEq, Repr

/-- The default `REGMAP` of R34. The spec marks the numbers as general knowledge (93_implementation_defined.md G2).
UNVERIFIED, unsafe: log 19. -/
def Config.regMap : RegMap where
  seconds    := 0x80
  minutes    := 0x82
  hours      := 0x84
  date       := 0x86
  month      := 0x88
  weekday    := 0x8A
  year       := 0x8C
  control    := 0x8E
  trickle    := 0x90
  clockBurst := 0xBE
  ramBytes   := (List.range Config.ramSize).map (fun n => 0xC0 + BitVec.ofNat 8 (2 * n))
  ramBurst   := 0xFE

/-- What a free byte stands for. -/
inductive FreeByte where
  /-- a peripheral register nothing has written (R48, U7); indexes: the epoch, the register -/
  | unwritten
  /-- the value a clock register has advanced to (R217, U8); indexes: the transaction, the register -/
  | clock
  /-- the reserved bits of a register as read (R45, U5); indexes: the transaction, the register -/
  | reserved
  /-- a clock-space register after a clock-burst write cut short (R144, U10); indexes: the transaction, the register -/
  | cutShort
  /-- the control register after a burst write while WP is 1 (U9); indexes: the transaction, the register -/
  | burstControl
  /-- the reserved bits of the control register after a write made while WP is 1 (R72, U11); indexes: the transaction, the
  register -/
  | protectedControl
  /-- the peripheral's protocol state after an aborted transaction (R207, U2); indexes: the draw, the field -/
  | aborted
  /-- what a read of an engine register that holds no value gives (R46, U23); indexes: the register, the byte -/
  | noValue
  deriving DecidableEq, Repr

/-- The free bytes: no body, so nothing can prove a value of one (log 10). -/
opaque Config.freeByte : FreeByte → Nat → Nat → Byte

/-- The free level of a data line that nobody drives or that both sides drive (R205, U3, U4); index: the draw. No body
(log 10). -/
opaque Config.freeLevel : Nat → Bool

/-- Whether a clock register has advanced before a transaction (R217, U8); indexes: the transaction, the register.
No body (log 10). -/
opaque Config.clockAdvances : Nat → Nat → Bool

end Sys2Proof
end

