-- ==== Sys2Proof/Syntax.lean ====
section
/-! DEFINITION. The instructions: one constructor for each row of spec/opcode_table.json. Eight are requests of the host
(format HOSTREQ, 30_encoding.md R89, R90); twenty-four are command bytes the peripheral takes (format CMD8, R80). -/

namespace Sys2Proof

/-- The instructions. A request holds every field of its word: `addr` [10:3] and `wdata` [18:11] stand in each, also where
the operation ignores them (R89). A burst write holds its payload, the operand `req_wbuf` that is not in the word. -/
inductive Instr where
  /-- READ, op 0 (R130) -/
  | read (addr wdata : Byte)
  /-- WRITE, op 1 (R131) -/
  | write (addr wdata : Byte)
  /-- BURST_READ_CLOCK, op 2 (R140) -/
  | burstReadClock (addr wdata : Byte)
  /-- BURST_WRITE_CLOCK, op 3 (R141) -/
  | burstWriteClock (addr wdata : Byte) (payload : List Byte)
  /-- BURST_READ_RAM, op 4 (R142) -/
  | burstReadRam (addr wdata : Byte)
  /-- BURST_WRITE_RAM, op 5 (R143) -/
  | burstWriteRam (addr wdata : Byte) (payload : List Byte)
  /-- the reserved code 6 (R91) -/
  | reservedOp6 (addr wdata : Byte)
  /-- the reserved code 7 (R91) -/
  | reservedOp7 (addr wdata : Byte)
  | cmdWriteSeconds
  | cmdReadSeconds
  | cmdWriteMinutes
  | cmdReadMinutes
  | cmdWriteHours
  | cmdReadHours
  | cmdWriteDate
  | cmdReadDate
  | cmdWriteMonth
  | cmdReadMonth
  | cmdWriteWeekday
  | cmdReadWeekday
  | cmdWriteYear
  | cmdReadYear
  | cmdWriteControl
  | cmdReadControl
  | cmdWriteTrickle
  | cmdReadTrickle
  /-- `RAM(n)`, write form; `n` = 31 is no RAM byte (the row's exclusion) -/
  | cmdWriteRam (n : BitVec 5)
  /-- `RAM(n)`, read form; `n` = 31 is no RAM byte (the row's exclusion) -/
  | cmdReadRam (n : BitVec 5)
  | cmdWriteClockBurst
  | cmdReadClockBurst
  | cmdWriteRamBurst
  | cmdReadRamBurst
  deriving DecidableEq, Repr

end Sys2Proof
end

