-- ==== Sys2Proof/Machine/State.lean ====
section
/-! DEFINITION. The state of the five agents of 10_state.md R20, as plain data: the engine (R22 to R29), the host's port and
inputs (R25, R28, R240), the peripheral (60_exceptions.md R213 to R224) and the model's own records (R33, R8). -/

namespace Sys2Proof.Machine

open Sys2Proof

/-- Bytes by index, ascending, no repeats; an index not listed holds no value (R46) or, in the peripheral's store, has not
been written (R48). The same form for bits (`rx`). -/
abbrev Cells (α : Type) := List (Nat × α)

/-- Cells of bytes. -/
abbrev Memory := List Host.Cell

/-- The data line's direction latch (R24). -/
inductive Dir where
  | out
  | in
  deriving DecidableEq, Repr

/-- The sequencer's phases (R22). -/
inductive Phase where
  | idle
  | active
  | addressing
  | writing
  | lineReleased
  | reading
  | closing
  deriving DecidableEq, Repr

/-- The delays of R5, by name. -/
inductive Delay where
  | ceSu
  | ceRec
  | dsu
  | dh
  | clr
  | rh
  | rl
  deriving DecidableEq, Repr

/-- The line events (R8). -/
inductive Event where
  | ce (level : Bool)
  | clk (level : Bool)
  | dout (level : Bool)
  | dir (d : Dir)
  | sample (k : Fin 8)
  | wait (t : Delay)
  deriving DecidableEq, Repr

/-- The operations the register `op` can hold (R27, R90). A reserved code is rejected before it reaches `op` (R202). -/
inductive HostOp where
  | read
  | write
  | burstReadClock
  | burstWriteClock
  | burstReadRam
  | burstWriteRam
  deriving DecidableEq, Repr

/-- The status codes that are produced (R200). Code 3 is reserved and never produced. -/
inductive Status where
  | ok
  | invalidAddress
  | invalidOperation
  deriving DecidableEq, Repr

/-- A request as the host holds it (R25): `req_op`, `req_addr`, `req_wdata`, `req_wbuf`. -/
structure Request where
  op    : BitVec 3
  addr  : Byte
  wdata : Byte
  wbuf  : List Byte
  deriving DecidableEq, Repr

/-- The host's request port (R25): `req_valid` and the signals it qualifies. `held` is the host's own: whether it keeps the
request there until it is answered (log 3). -/
structure Port where
  valid   : Bool
  held    : Bool
  request : Request
  deriving DecidableEq, Repr

/-- A move of the host (R225). -/
inductive HostMove where
  /-- present a request until it is accepted or rejected -/
  | request (r : Request)
  /-- present a request for one step -/
  | present (r : Request)
  /-- hold `req_valid` low for one step -/
  | hold
  /-- assert reset for one step, with `req_valid` low (DESIGN CHOICE, log 3) and `cfg_init_clear` held at `cfg` across the
  release -/
  | reset (cfg : Bool)
  deriving DecidableEq, Repr

/-- The build's parameters (R5): `REGMAP`, the delays in microseconds, `TICKS_PER_US` and `HAS_RAM_BURST`. -/
structure Params where
  regMap      : RegMap
  ticksPerUs  : Nat
  hasRamBurst : Bool
  tCeSu       : Nat
  tCeRec      : Nat
  tDsu        : Nat
  tDh         : Nat
  tClr        : Nat
  tRh         : Nat
  tRl         : Nat
  deriving DecidableEq, Repr

/-- What is wired to the three lines: the chip under its contract (R213 to R219), the reference responder (R220 to R224), or
nothing (R130, R205). -/
inductive DeviceKind where
  | chip
  | responder
  | absent
  deriving DecidableEq, Repr

/-- The peripheral's protocol modes (R220). -/
inductive PeriphMode where
  | off
  | cmd
  | wdata
  | rdata
  | ignore
  deriving DecidableEq, Repr

/-- The peripheral. The fields from `store` to `driveBit` but `epoch` and `txn` are R220's; `snapshot` is R69's frozen
record; `staged` holds a clock-burst write until it is complete (R144, 93_implementation_defined.md G15). `epoch` and `txn`
are the model's own: indexes of free values (log 10). -/
structure Periph where
  kind     : DeviceKind
  store    : Memory
  epoch    : Nat
  txn      : Nat
  mode     : PeriphMode
  nbits    : Nat
  shift    : Byte
  rc       : Bool
  burst    : Bool
  ptr      : Nat
  drive    : Bool
  driveBit : Bool
  snapshot : Memory
  staged   : Memory
  deriving DecidableEq, Repr

/-- The whole machine. -/
structure State where
  /-- the build's parameters, which no step changes (R5) -/
  params       : Params
  /-- the sequencer's phase (R22) -/
  phase        : Phase
  /-- the sequencer position: the index of the next event (R31) -/
  pos          : Nat
  /-- the `init_pending` flag (R161) -/
  initPending  : Bool
  /-- whether the next init write is the second one (R160) -/
  initSecond   : Bool
  /-- the enable latch (R24) -/
  ce           : Bool
  /-- the clock latch (R24) -/
  clk          : Bool
  /-- the data output latch (R24) -/
  dout         : Bool
  /-- the data direction latch (R24) -/
  dir          : Dir
  /-- `rsp_valid` (R26) -/
  rspValid     : Bool
  /-- `rsp_status`, or no value (R26, R47) -/
  rspStatus    : Option Status
  /-- `rsp_rdata`, or no value (R26, R46) -/
  rspRdata     : Option Byte
  /-- `rsp_rbuf`: the bytes that hold a value (R26, R46) -/
  rspRbuf      : Memory
  /-- `op`, or no value (R27, R46) -/
  op           : Option HostOp
  /-- `cmd`, or no value (R27, R46) -/
  cmd          : Option Byte
  /-- `tx`, or no value (R27, R46) -/
  tx           : Option Byte
  /-- `rx`: the bits that hold a value (R27, R46, R106) -/
  rx           : Cells Bool
  /-- `bit`, or no value (R27, R46) -/
  bit          : Option (Fin 8)
  /-- `idx`, or no value (R27, R46) -/
  idx          : Option (Fin 31)
  /-- `buf`: the bytes that hold a value (R27, R46) -/
  buf          : Memory
  /-- `wait_ctr`, or no value (R27, R29, R46) -/
  waitCtr      : Option Nat
  /-- CONTENTION has been recorded (R33, R206) -/
  contention   : Bool
  /-- ABORTED_TRANSACTION has been recorded (R33, R207) -/
  aborted      : Bool
  /-- the model fault of a read of an engine register that holds no value has been recorded (R46, U23) -/
  noValueRead  : Bool
  /-- the trace, newest event first (R8, R9) -/
  trace        : List Event
  /-- the model's own: how many line events and resets there have been, the index of the next draw (log 10) -/
  draws        : Nat
  /-- the request port (R25) -/
  port         : Port
  /-- the reset input (R240) -/
  rst          : Bool
  /-- the configuration input `cfg_init_clear` (R28) -/
  cfgInitClear : Bool
  /-- the host's moves to come (R225, R227) -/
  script       : List HostMove
  /-- the peripheral (R20 (3)) -/
  periph       : Periph
  deriving DecidableEq, Repr

/-- The engine registers that the sequencer reads and that can hold no value (R46). -/
inductive Register where
  | op
  | cmd
  | tx
  | rx
  | buf
  deriving DecidableEq, Repr

/-- Why the machine stops with a fault: nothing does. Each fault of the spec is a model fault (R33): CONTENTION (R206),
ABORTED_TRANSACTION (R207) and the read of a register that holds no value (R46, U23) are recorded in State and the machine goes
on (93_implementation_defined.md, treatment `fault`). -/
inductive Fault where
  deriving DecidableEq, Repr

/-- Why the machine refuses to go on. -/
inductive Refusal where
  /-- The instruction has no meaning yet. Raised by an arm of exec. Safe. -/
  | notModelled (mnemonic : String)
  /-- A command byte outside REGMAP reached the chip: "undefined chip behavior" (R218, U1 `refuse`). Raised by the
  peripheral's step, in a run with no abort recorded. Safe: the engine never sends one (R88). -/
  | undefinedCommand (c : Byte)
  deriving DecidableEq, Repr

/-- The outcome of a step. -/
abbrev Outcome := Host.Outcome State Fault Refusal

/-- The parameters with R5's values; `TICKS_PER_US`, which R5 leaves OPEN, is 1. DESIGN CHOICE, safe: log 5. -/
def Params.default : Params where
  regMap      := Config.regMap
  ticksPerUs  := 1
  hasRamBurst := true
  tCeSu       := 4
  tCeRec      := 4
  tDsu        := 1
  tDh         := 1
  tClr        := 1
  tRh         := 1
  tRl         := 1

/-- A peripheral that has just been wired up: CE is low, so its mode is OFF and it does not drive (R214, R220). None of its
registers has been written, so each is a free value (R48). The other protocol fields are written before they are read: DESIGN
CHOICE, log 23. -/
def Periph.initial (kind : DeviceKind) : Periph where
  kind     := kind
  store    := []
  epoch    := 0
  txn      := 0
  mode     := .off
  nbits    := 0
  shift    := 0
  rc       := false
  burst    := false
  ptr      := 0
  drive    := false
  driveBit := false
  snapshot := []
  staged   := []

/-- The request signals of a host that presents nothing. -/
def Request.blank : Request where
  op    := 0
  addr  := 0
  wdata := 0
  wbuf  := []

/-- The machine right after reset (R47, R240, R241), with `cfg_init_clear` sampled as 0, the chip wired up, and a host that
makes no move (log 3, log 5). -/
def State.reset : State where
  params       := Params.default
  phase        := .idle
  pos          := 0
  initPending  := false
  initSecond   := false
  ce           := false
  clk          := false
  dout         := false
  dir          := .in
  rspValid     := false
  rspStatus    := none
  rspRdata     := none
  rspRbuf      := []
  op           := none
  cmd          := none
  tx           := none
  rx           := []
  bit          := none
  idx          := none
  buf          := []
  waitCtr      := none
  contention   := false
  aborted      := false
  noValueRead  := false
  trace        := []
  draws        := 0
  port         := ⟨false, false, Request.blank⟩
  rst          := false
  cfgInitClear := false
  script       := []
  periph       := Periph.initial .chip

end Sys2Proof.Machine
end

