-- ==== Sys2Proof/Machine/Ops.lean ====
section
/-! DEFINITION. The named operations over cells and registers, and the two ways a request ends at the port: acceptance (R25)
and rejection (60_exceptions.md R201), the engine's only error mechanism. -/

namespace Sys2Proof.Machine

open Sys2Proof

/-- The value at an index, if it holds one. -/
def Cells.read {α : Type} (m : Cells α) (a : Nat) : Option α :=
  match m with
  | [] => none
  | (b, v) :: rest => if a = b then some v else Cells.read rest a

/-- Write one index; the list stays ascending without repeats. -/
def Cells.write {α : Type} (m : Cells α) (a : Nat) (v : α) : Cells α :=
  match m with
  | [] => [(a, v)]
  | (b, w) :: rest =>
    if a < b then (a, v) :: (b, w) :: rest
    else if a = b then (a, v) :: rest
    else (b, w) :: Cells.write rest a v

/-- The canonical form: indexes strictly rising. An unlisted index reads as no value, so no entry can equal it (log 11). -/
def Cells.wf {α : Type} (m : Cells α) : Bool :=
  match m with
  | [] => true
  | [_] => true
  | (a, _) :: (b, w) :: rest => decide (a < b) && Cells.wf ((b, w) :: rest)

/-- The canonical form of a byte memory. -/
def Memory.wf (m : Memory) : Bool := Cells.wf m

/-- The number of a register among the free values `noValue`. -/
def Register.number (r : Register) : Nat :=
  match r with
  | .op => 0
  | .cmd => 1
  | .tx => 2
  | .rx => 3
  | .buf => 4

/-- What a read of a register gives: its value, or a free one where it holds none (U23, log 6). -/
def valueOr (r : Register) (n : Nat) (v : Option Byte) : Byte := v.getD (Config.freeByte .noValue r.number n)

/-- The bytes of `buf` at the given indexes, with their indexes. -/
def readRange (m : Memory) (ks : List (Fin 31)) : List (Fin 31 × Byte) :=
  ks.map (fun k => (k, valueOr .buf k.val (Cells.read m k.val)))

/-- Whether every one of the given indexes holds a value. -/
def holdsRange (m : Memory) (ks : List (Fin 31)) : Bool := ks.all (fun k => (Cells.read m k.val).isSome)

/-- The first `n` indexes of a burst, ascending (R65). -/
def burstIndices (n : Nat) : List (Fin 31) := (List.finRange 31).take n

/-- Bytes 0, 1, ... as cells. -/
def cellsOf (bytes : List (Fin 31 × Byte)) : Memory := bytes.map (fun kv => (kv.1.val, kv.2))

/-- The bytes of a payload at the indexes of a burst of `n` bytes (R25: "the bytes of `req_wbuf` the operation uses"). -/
def payloadCells (n : Nat) (payload : List Byte) : Memory := cellsOf ((burstIndices n).zip payload)

/-- `v` with bit `i` set to `b` (R6); a bit above 7 does not exist. -/
def setBit (v : Byte) (i : Nat) (b : Bool) : Byte :=
  if b then v ||| ((1 : Byte) <<< i) else v &&& ~~~((1 : Byte) <<< i)

/-- `rx` as a byte, once all its bits hold a value (R104 "return rx", R106). -/
def assemble (rx : Cells Bool) : Option Byte :=
  match Cells.read rx 0, Cells.read rx 1, Cells.read rx 2, Cells.read rx 3,
        Cells.read rx 4, Cells.read rx 5, Cells.read rx 6, Cells.read rx 7 with
  | some b0, some b1, some b2, some b3, some b4, some b5, some b6, some b7 =>
    some (BitVec.ofBool b7 ++ BitVec.ofBool b6 ++ BitVec.ofBool b5 ++ BitVec.ofBool b4 ++
      BitVec.ofBool b3 ++ BitVec.ofBool b2 ++ BitVec.ofBool b1 ++ BitVec.ofBool b0)
  | _, _, _, _, _, _, _, _ => none

/-- What follows a next state; a fault or a refusal stays. -/
def andThen (o : Outcome) (f : State → Outcome) : Outcome :=
  match o with
  | .next s => f s
  | .fault r => .fault r
  | .refused r => .refused r

/-- Change the next state; a fault or a refusal stays. -/
def mapNext (o : Outcome) (f : State → State) : Outcome := andThen o (fun s => .next (f s))

/-- Begin an operation (R25, R108): the sequencer stands before its first event, `op`, `cmd`, `tx` and `buf` hold what
acceptance gives them, and every other datapath register holds no value (R46). -/
def State.beginOp (s : State) (op : HostOp) (cmd tx : Byte) (buf : Memory) : State :=
  { s with
    phase := .active, pos := 0,
    op := some op, cmd := some cmd, tx := some tx, buf := buf,
    rx := [], bit := none, idx := none, waitCtr := none }

/-- Accept a request (R25, R26): its operation begins, `rsp_valid` is cleared, and the response data hold no value until the
operation writes them (R46). `rsp_status` stays until it is written (log 21). -/
def State.accept (s : State) (op : HostOp) (cmd tx : Byte) (buf : Memory) : State :=
  { s.beginOp op cmd tx buf with rspValid := false, rspRdata := none, rspRbuf := [] }

/-- Reject a request (R201): the status and `rsp_valid`, and nothing else; the response data, which this operation did not
write, hold no value (R26, R46, program P1). -/
def State.reject (s : State) (st : Status) : State :=
  { s with rspStatus := some st, rspValid := true, rspRdata := none, rspRbuf := [] }

end Sys2Proof.Machine
end

