-- ==== Sys2Proof/Machine/Flags.lean ====
section
/-! DEFINITION. The engine has no condition codes (10_state.md R32). Its status bits and outputs, as functions of the state:
`req_ready` (R25), the status codes (60_exceptions.md R200), the line ports (R23) and the fault record (R33). -/

namespace Sys2Proof.Machine

open Sys2Proof

/-- `req_ready` (R25): 1 exactly when the phase is IDLE and no init-policy write is pending. -/
def State.reqReady (s : State) : Bool := s.phase == .idle && !s.initPending

/-- `rsp_status` as a two-bit code (R200). -/
def Status.code (st : Status) : BitVec 2 :=
  match st with
  | .ok => 0
  | .invalidAddress => 1
  | .invalidOperation => 2

/-- `op` as its three-bit code (R90). -/
def HostOp.code (op : HostOp) : BitVec 3 :=
  match op with
  | .read => 0
  | .write => 1
  | .burstReadClock => 2
  | .burstWriteClock => 3
  | .burstReadRam => 4
  | .burstWriteRam => 5

/-- The port `io_oe` (R23): 1 while the engine drives the data line. -/
def State.ioOe (s : State) : Bool := s.dir == .out

/-- No model fault is recorded (R33). -/
def State.noFault (s : State) : Bool := !s.contention && !s.aborted

end Sys2Proof.Machine
end

