-- ==== Sys2Proof/WellFormed.lean ====
section
/-! DEFINITION. When an instruction is well formed: a burst payload has its operation's length (20_memory.md R67), and a RAM
index names a RAM byte (R62: index 31 is the RAM-burst command). Everything else is in the types. -/

namespace Sys2Proof

/-- Every value of this type that the encoding admits, and no other. -/
def Instr.wellFormed (i : Instr) : Bool :=
  match i with
  | .read _ _ => true
  | .write _ _ => true
  | .burstReadClock _ _ => true
  | .burstWriteClock _ _ payload => payload.length == Config.clockBurstLen
  | .burstReadRam _ _ => true
  | .burstWriteRam _ _ payload => payload.length == Config.ramBurstLen
  | .reservedOp6 _ _ => true
  | .reservedOp7 _ _ => true
  | .cmdWriteSeconds => true
  | .cmdReadSeconds => true
  | .cmdWriteMinutes => true
  | .cmdReadMinutes => true
  | .cmdWriteHours => true
  | .cmdReadHours => true
  | .cmdWriteDate => true
  | .cmdReadDate => true
  | .cmdWriteMonth => true
  | .cmdReadMonth => true
  | .cmdWriteWeekday => true
  | .cmdReadWeekday => true
  | .cmdWriteYear => true
  | .cmdReadYear => true
  | .cmdWriteControl => true
  | .cmdReadControl => true
  | .cmdWriteTrickle => true
  | .cmdReadTrickle => true
  | .cmdWriteRam n => n != 31
  | .cmdReadRam n => n != 31
  | .cmdWriteClockBurst => true
  | .cmdReadClockBurst => true
  | .cmdWriteRamBurst => true
  | .cmdReadRamBurst => true

end Sys2Proof
end

