-- ==== Sys2Proof/Decode.lean ====
section
/-! DEFINITION. Decoding and encoding. A command byte (30_encoding.md R80) is looked up in the parameter `REGMAP` (10_state.md
R34); a request (R89) is told by its operation code. Bytes decode to an instruction or to an error with a name. The words of
spec/opcode_table.json are those of the default map, which `decode` and `encode` take. -/

namespace Sys2Proof

/-- Why bytes are no instruction. -/
inductive DecodeError where
  /-- a command byte that names no register and no burst (R87, R88) -/
  | invalidCommand (c : Byte)
  /-- a request word with a bit set above its 19 bits (R89) -/
  | wordTooWide
  /-- a payload whose length is not the operation's (R67, R93) -/
  | wrongPayload
  /-- neither one command byte nor the three bytes of a request word -/
  | wrongLength
  deriving DecidableEq, Repr

/-- The register names of R34 in index order, with their write forms. -/
def RegMap.registers (m : RegMap) : List Byte :=
  [m.seconds, m.minutes, m.hours, m.date, m.month, m.weekday, m.year, m.control, m.trickle]

/-- `RAM(n)` (R34): the write form. -/
def RegMap.ram (m : RegMap) (n : Nat) : Byte := m.ramBytes.getD n 0

/-- Every write form of the map: the registers, the RAM bytes and the two burst commands (R34, R87). -/
def RegMap.writeForms (m : RegMap) : List Byte :=
  m.registers ++ (List.range Config.ramSize).map m.ram ++ [m.clockBurst, m.ramBurst]

/-- What any replacement `REGMAP` must keep (R34): there are 31 RAM bytes, bit 7 of every value is 1, bit 0 is the read flag, and the
registers come in their order with trickle immediately after control. That the order is that of the numbers, and that no two names share a command
byte, is read into it: DEDUCED, log 32. -/
def RegMap.wf (m : RegMap) : Bool :=
  m.ramBytes.length == Config.ramSize && decide m.writeForms.Nodup && m.writeForms.all (fun c => c.getLsbD 7 && !c.getLsbD 0) &&
  decide ((m.registers.map BitVec.toNat).Pairwise (fun a b => a < b)) && m.trickle == m.control + 2

/-- A name of `REGMAP` (R34): its write form, and the instruction of its write form (`false`) and of its read form (`true`). -/
structure CommandRow where
  writeForm : Byte
  make      : Bool → Instr

/-- The nine clock-space registers, in index order. -/
def clockRows (m : RegMap) : List CommandRow :=
  [⟨m.seconds, fun read => if read then .cmdReadSeconds else .cmdWriteSeconds⟩,
   ⟨m.minutes, fun read => if read then .cmdReadMinutes else .cmdWriteMinutes⟩,
   ⟨m.hours, fun read => if read then .cmdReadHours else .cmdWriteHours⟩,
   ⟨m.date, fun read => if read then .cmdReadDate else .cmdWriteDate⟩,
   ⟨m.month, fun read => if read then .cmdReadMonth else .cmdWriteMonth⟩,
   ⟨m.weekday, fun read => if read then .cmdReadWeekday else .cmdWriteWeekday⟩,
   ⟨m.year, fun read => if read then .cmdReadYear else .cmdWriteYear⟩,
   ⟨m.control, fun read => if read then .cmdReadControl else .cmdWriteControl⟩,
   ⟨m.trickle, fun read => if read then .cmdReadTrickle else .cmdWriteTrickle⟩]

/-- The RAM bytes, in index order. -/
def ramRows (m : RegMap) : List CommandRow :=
  (List.range Config.ramSize).map (fun n =>
    ⟨m.ram n, fun read => if read then .cmdReadRam (BitVec.ofNat 5 n) else .cmdWriteRam (BitVec.ofNat 5 n)⟩)

/-- The two burst command pairs (R86). -/
def burstRows (m : RegMap) : List CommandRow :=
  [⟨m.clockBurst, fun read => if read then .cmdReadClockBurst else .cmdWriteClockBurst⟩,
   ⟨m.ramBurst, fun read => if read then .cmdReadRamBurst else .cmdWriteRamBurst⟩]

/-- Every command byte of a map, one row for its write and its read form. -/
def commandTable (m : RegMap) : List CommandRow := clockRows m ++ ramRows m ++ burstRows m

/-- The command a byte is under a map (R34, R80, R88): bit 0 is the read flag, and the rest is a write form of the map. -/
def decodeCommand (m : RegMap) (c : Byte) : Except DecodeError Instr :=
  match (commandTable m).find? (fun r => r.writeForm == (c &&& 0xFE)) with
  | some r => .ok (r.make (c.getLsbD 0))
  | none => .error (.invalidCommand c)

/-- How many payload bytes an operation code takes from `req_wbuf` (R25, R67). -/
def payloadLen (op : BitVec 3) : Nat :=
  if op = 3 then Config.clockBurstLen else if op = 5 then Config.ramBurstLen else 0

/-- The request an operation code and its operands are (R90, R91). Every code is some instruction. -/
def decodeRequest (op : BitVec 3) (addr wdata : Byte) (payload : List Byte) : Instr :=
  if op = 0 then .read addr wdata
  else if op = 1 then .write addr wdata
  else if op = 2 then .burstReadClock addr wdata
  else if op = 3 then .burstWriteClock addr wdata payload
  else if op = 4 then .burstReadRam addr wdata
  else if op = 5 then .burstWriteRam addr wdata payload
  else if op = 6 then .reservedOp6 addr wdata
  else .reservedOp7 addr wdata

/-- The packed request word (R89): `op` [2:0], `addr` [10:3], `wdata` [18:11]. -/
def requestWord (op : BitVec 3) (addr wdata : Byte) : BitVec 19 := wdata ++ addr ++ op

/-- A request word and its payload (R89). The payload has the operation's length, or the form is refused (R93). -/
def decodeWord (w : BitVec 19) (payload : List Byte) : Except DecodeError Instr :=
  if payload.length = payloadLen (w.extractLsb' 0 3) then
    .ok (decodeRequest (w.extractLsb' 0 3) (w.extractLsb' 3 8) (w.extractLsb' 11 8) payload)
  else .error .wrongPayload

/-- Bytes to an instruction under a map: one byte is a command; three or more are a request word, lowest byte first, and its payload.
DESIGN CHOICE (log 20): the spec packs the word and gives it no bytes. -/
def decodeWith (m : RegMap) (bytes : List Byte) : Except DecodeError Instr :=
  match bytes with
  | [] => .error .wrongLength
  | [c] => decodeCommand m c
  | [_, _] => .error .wrongLength
  | b0 :: b1 :: b2 :: payload =>
    if b2.extractLsb' 3 5 = 0 then decodeWord (b2.extractLsb' 0 3 ++ b1 ++ b0) payload
    else .error .wordTooWide

/-- Bytes to an instruction under the default map. -/
def decode (bytes : List Byte) : Except DecodeError Instr := decodeWith Config.regMap bytes

/-- A command byte assembled from its fields (R80, R83): bit 7 is 1. -/
def commandByte (rc : BitVec 1) (a : BitVec 5) (rw : BitVec 1) : Byte := (1 : BitVec 1) ++ rc ++ a ++ rw

/-- The three bytes of a request word, lowest first; bits 23 to 19 are 0. -/
def requestBytes (op : BitVec 3) (addr wdata : Byte) : List Byte :=
  [(requestWord op addr wdata).extractLsb' 0 8, (requestWord op addr wdata).extractLsb' 8 8,
   (0 : BitVec 5) ++ (requestWord op addr wdata).extractLsb' 16 3]

/-- The bytes of an instruction under a map. -/
def encodeWith (m : RegMap) (i : Instr) : List Byte :=
  match i with
  | .read addr wdata => requestBytes 0 addr wdata
  | .write addr wdata => requestBytes 1 addr wdata
  | .burstReadClock addr wdata => requestBytes 2 addr wdata
  | .burstWriteClock addr wdata payload => requestBytes 3 addr wdata ++ payload
  | .burstReadRam addr wdata => requestBytes 4 addr wdata
  | .burstWriteRam addr wdata payload => requestBytes 5 addr wdata ++ payload
  | .reservedOp6 addr wdata => requestBytes 6 addr wdata
  | .reservedOp7 addr wdata => requestBytes 7 addr wdata
  | .cmdWriteSeconds => [m.seconds]
  | .cmdReadSeconds => [m.seconds ||| 0x01]
  | .cmdWriteMinutes => [m.minutes]
  | .cmdReadMinutes => [m.minutes ||| 0x01]
  | .cmdWriteHours => [m.hours]
  | .cmdReadHours => [m.hours ||| 0x01]
  | .cmdWriteDate => [m.date]
  | .cmdReadDate => [m.date ||| 0x01]
  | .cmdWriteMonth => [m.month]
  | .cmdReadMonth => [m.month ||| 0x01]
  | .cmdWriteWeekday => [m.weekday]
  | .cmdReadWeekday => [m.weekday ||| 0x01]
  | .cmdWriteYear => [m.year]
  | .cmdReadYear => [m.year ||| 0x01]
  | .cmdWriteControl => [m.control]
  | .cmdReadControl => [m.control ||| 0x01]
  | .cmdWriteTrickle => [m.trickle]
  | .cmdReadTrickle => [m.trickle ||| 0x01]
  | .cmdWriteRam n => [m.ram n.toNat]
  | .cmdReadRam n => [m.ram n.toNat ||| 0x01]
  | .cmdWriteClockBurst => [m.clockBurst]
  | .cmdReadClockBurst => [m.clockBurst ||| 0x01]
  | .cmdWriteRamBurst => [m.ramBurst]
  | .cmdReadRamBurst => [m.ramBurst ||| 0x01]

/-- The bytes of an instruction under the default map. -/
def encode (i : Instr) : List Byte := encodeWith Config.regMap i

/-- Whether table bits are a command byte (R80): eight bits with bit 7 set. Any other bits are a request word. The table fixes the
three bits of `op` alone in a request's row, so that it too may come in eight bits; its other bits are then 0, and bit 7, which
every command byte has set, is clear (log 20). -/
def tableIsCommand (nbits w : Nat) : Bool := decide (nbits ≤ 8) && decide (128 ≤ w)

/-- The bytes of the instruction whose table bits are `w`, in `nbits` bits: one byte, or a request word's three bytes and a
payload of zeros of the operation's length. -/
def tableBytes (nbits w : Nat) : List Byte :=
  if tableIsCommand nbits w then [BitVec.ofNat 8 w]
  else [BitVec.ofNat 8 w, BitVec.ofNat 8 (w / 256), BitVec.ofNat 8 (w / 65536)]
    ++ List.replicate (payloadLen (BitVec.ofNat 3 w)) 0

/-- The instruction the decoder reads from a row of the opcode table, bits numbered as the table numbers them. A word with a
bit beyond its bytes is no instruction. -/
def decodeTableWord (nbits w : Nat) : Option Instr :=
  if w < (if nbits ≤ 8 then 256 else 16777216) then
    match decode (tableBytes nbits w) with
    | .ok i => some i
    | .error _ => none
  else none

end Sys2Proof
end

