-- ==== Sys2Proof/Machine/Operands.lean ====
section
/-! DEFINITION. Every operand form: the address operand, its validity and its forcing (30_encoding.md R84, R85, R87), the fields
of a command byte (R83), the burst commands (R86), the payload of the request port (10_state.md R25) and the keys of the
peripheral's register space (20_memory.md R60 to R62). -/

namespace Sys2Proof.Machine

open Sys2Proof

/-- READ's command byte (R84): bit 0 forced to 1. -/
def readCommand (addr : Byte) : Byte := addr ||| 0x01

/-- WRITE's command byte (R85): bit 0 forced to 0. -/
def writeCommand (addr : Byte) : Byte := addr &&& 0xFE

/-- Address validity (R87): the operand without bit 0 is a write form of the map. -/
def validAddr (m : RegMap) (addr : Byte) : Bool := m.writeForms.contains (addr &&& 0xFE)

/-- `space(c)` (R83): 1 is the RAM space. -/
def commandSpace (c : Byte) : Bool := c.getLsbD 6
/-- `index(c)` (R83). -/
def commandIndex (c : Byte) : BitVec 5 := c.extractLsb' 1 5
/-- `is_read(c)` (R83). -/
def commandIsRead (c : Byte) : Bool := c.getLsbD 0

/-- The first `n` bytes of `req_wbuf` (R25). The port is 31 bytes wide: a byte the list does not give is 0 (log 25). -/
def Port.payload (p : Port) (n : Nat) : List Byte := (List.range n).map (fun k => p.request.wbuf.getD k 0)

/-- The key of a register in the peripheral's store: command bits [6:1] (R60, R83). -/
def cellOf (rc : Bool) (index : Nat) : Nat := if rc then 32 + index else index

/-- The key of the control register (R42). -/
def controlCell : Nat := 7

/-- The keys of the nine clock-space registers (R61). -/
def clockCells : List Nat := List.range 9

/-- The keys of the registers the chip's clock advances, `SECONDS` to `YEAR` (R217). -/
def timeCells : List Nat := List.range 7

/-- The keys that name a register or a RAM byte (R61, R62). -/
def cellExists (a : Nat) : Bool := decide (a ≤ 8) || (decide (32 ≤ a) && decide (a ≤ 62))

/-- The reserved bits of a register (R35 to R45). -/
def reservedMask (a : Nat) : Byte :=
  match a with
  | 1 => 0x80
  | 2 => 0x40
  | 3 => 0xC0
  | 4 => 0xE0
  | 5 => 0xF8
  | 7 => 0x7F
  | _ => 0x00

end Sys2Proof.Machine
end

