-- ==== Sys2Proof/Machine/Peripheral.lean ====
section
/-! DEFINITION. The peripheral: the chip under its contract (60_exceptions.md R213 to R219) and the reference responder (R220 to
R224), which differ in write protection, the clock's advance, reserved bits and cut-short bursts; and what an aborted
transaction makes of either (R207). -/

namespace Sys2Proof.Machine

open Sys2Proof

/-- What a register holds: what was written, or a free value where nothing has been (R48). -/
def Periph.regByte (p : Periph) (a : Nat) : Byte :=
  (Cells.read p.store a).getD (Config.freeByte .unwritten p.epoch a)

/-- What a read of a register gives. The chip's reserved bits are any value (R45); the responder masks nothing. -/
def Periph.readByte (p : Periph) (a : Nat) : Byte :=
  match p.kind with
  | .chip => (p.regByte a &&& ~~~(reservedMask a)) ||| (Config.freeByte .reserved p.txn a &&& reservedMask a)
  | .responder => p.regByte a
  | .absent => p.regByte a

/-- The chip's write-protect bit (R42, R71). -/
def Periph.wp (p : Periph) : Bool := (p.regByte controlCell).getLsbD 7

/-- Put a value in a register. -/
def Periph.put (p : Periph) (a : Nat) (v : Byte) : Periph := { p with store := Cells.write p.store a v }

/-- The byte a write leaves in the control register of the chip (R72): while WP is 1, WP itself takes the written value and the
reserved bits are any value (U11, log 14). -/
def Periph.controlByte (p : Periph) (v : Byte) : Byte :=
  if p.wp then (v &&& 0x80) ||| (Config.freeByte .protectedControl p.txn controlCell &&& 0x7F) else v

/-- The effect of one written byte. The chip ignores a write while WP is 1, but for the control register (R71, R72); the
responder has no WP. The bits of TRICKLE (R43: `trickleEnabled` and the other fields) have no effect beyond the stored byte, and
those of CH none beyond the free advance of the clock (R219, U9): DESIGN CHOICE, log 33. The chip stores an illegal BCD byte or an
impossible date as it is written (U24, U26): DESIGN CHOICE, log 34. It stores the reserved bits of a byte as they are written, and
they have no effect (R45, U6): DESIGN CHOICE, log 35. -/
def Periph.writeReg (p : Periph) (a : Nat) (v : Byte) : Periph :=
  match p.kind with
  | .chip => if a = controlCell then p.put a (p.controlByte v) else p.put a (if p.wp then p.regByte a else v)
  | .responder => p.put a v
  | .absent => p

/-- Put the value `f a` in each register `a` of a list. -/
def Periph.putAll (p : Periph) (as : List Nat) (f : Nat → Byte) : Periph :=
  match as with
  | [] => p
  | a :: rest => (p.put a (f a)).putAll rest f

/-- The chip's clock may advance `SECONDS` to `YEAR` between two transactions (R217): a free choice for each, with a free
new value. -/
def Periph.advanceClock (p : Periph) : Periph :=
  p.putAll timeCells
    (fun a => if Config.clockAdvances p.txn a then Config.freeByte .clock p.txn a else p.regByte a)

/-- CE rises (R221, R215): the next eight bits are the command byte. For the chip, a new transaction: its clock may have
advanced since the last. -/
def Periph.enable (p : Periph) : Periph :=
  match p.kind with
  | .chip => { ({ p with txn := p.txn + 1 }.advanceClock) with mode := .cmd, nbits := 0 }
  | .responder => { p with mode := .cmd, nbits := 0 }
  | .absent => p

/-- A clock-burst write cut short (R144, R219): every clock-space register is any value. -/
def Periph.dropStaged (p : Periph) : Periph :=
  if p.staged.isEmpty then p
  else { (p.putAll clockCells (fun a => Config.freeByte .cutShort p.txn a)) with staged := [] }

/-- CE falls (R221, R214): the peripheral stops driving. -/
def Periph.disable (p : Periph) : Periph :=
  match p.kind with
  | .chip => { (p.dropStaged) with mode := .off, drive := false }
  | .responder => { p with mode := .off, drive := false }
  | .absent => p

/-- How far a transfer's pointer may go (R222): 8 clock registers, 31 RAM bytes, or the one addressed byte. -/
def Periph.limit (p : Periph) : Nat :=
  if p.burst then (if p.rc then Config.ramBurstLen else Config.clockBurstLen) else p.ptr + 1

/-- The pointer after a byte: only a burst moves it (R216, R222, R223). -/
def Periph.advancePtr (p : Periph) : Periph := if p.burst then { p with ptr := p.ptr + 1 } else p

/-- The chip commits a clock burst when its eighth byte is in (R144, G15). While WP is 1 the bytes are ignored (R71), and the
control byte is any value (U9, log 14). -/
def Periph.commitStaged (p : Periph) : Periph :=
  { (p.putAll (List.range Config.clockBurstLen)
      (fun a =>
        if p.wp then (if a = controlCell then Config.freeByte .burstControl p.txn a else p.regByte a)
        else (Cells.read p.staged a).getD (p.regByte a))) with staged := [] }

/-- The chip has a data byte in `shift` (R216). A single byte takes effect at once, at its eighth rising edge: DESIGN CHOICE, log 36.
It ends the transfer: what further clocks do is not in source (log 16). -/
def Periph.chipByteIn (p : Periph) : Periph :=
  if p.burst then
    if p.ptr < p.limit then
      if p.rc then (p.writeReg (cellOf p.rc p.ptr) p.shift).advancePtr
      else
        let q := { p with staged := Cells.write p.staged p.ptr p.shift }
        (if p.ptr + 1 = Config.clockBurstLen then q.commitStaged else q).advancePtr
    else p
  else { (p.writeReg (cellOf p.rc p.ptr) p.shift) with mode := .ignore }

/-- The responder has a data byte in `shift` (R222). -/
def Periph.responderByteIn (p : Periph) : Periph :=
  (if p.ptr < p.limit then p.put (cellOf p.rc p.ptr) p.shift else p).advancePtr

/-- A data byte is complete (R222): it is in `shift`, and the bit count starts again. -/
def Periph.byteIn (p : Periph) : Periph :=
  match p.kind with
  | .chip => { p with nbits := 0 }.chipByteIn
  | .responder => { p with nbits := 0 }.responderByteIn
  | .absent => p

/-- Shift one sampled level in (R222). -/
def Periph.shiftIn (p : Periph) (level : Bool) : Periph :=
  { p with shift := setBit p.shift p.nbits level, nbits := p.nbits + 1 }

/-- A rising edge (R213, R222), the line being at `level`. A complete command byte waits for the peripheral's own step; a
complete data byte takes effect at once. -/
def Periph.rise (p : Periph) (level : Bool) : Periph :=
  match p.kind, p.mode with
  | .absent, _ => p
  | _, .cmd => if p.nbits < 8 then p.shiftIn level else p
  | _, .wdata =>
    if p.nbits + 1 = 8 then (p.shiftIn level).byteIn else p.shiftIn level
  | _, .off => p
  | _, .rdata => p
  | _, .ignore => p

/-- The byte the peripheral is sending: in the chip's clock burst, from the frozen snapshot (R69). -/
def Periph.outByte (p : Periph) : Byte :=
  match p.kind with
  | .chip => if p.burst && !p.rc then (Cells.read p.snapshot p.ptr).getD (p.readByte (cellOf p.rc p.ptr))
             else p.readByte (cellOf p.rc p.ptr)
  | .responder => p.readByte (cellOf p.rc p.ptr)
  | .absent => p.readByte (cellOf p.rc p.ptr)

/-- The bit has been presented: count it, and at the eighth go on to the next byte (R223). The chip's single read is then
over (log 16). -/
def Periph.countOut (p : Periph) : Periph :=
  if p.nbits + 1 = 8 then
    let q := { p with nbits := 0 }.advancePtr
    match p.kind with
    | .chip => if p.burst then q else { q with mode := .ignore }
    | .responder => q
    | .absent => q
  else { p with nbits := p.nbits + 1 }

/-- A falling edge (R214, R223): in a read's data phase the peripheral puts the next bit on the line. -/
def Periph.fall (p : Periph) : Periph :=
  match p.kind, p.mode with
  | .absent, _ => p
  | _, .rdata =>
    (if p.ptr < p.limit then { p with drive := true, driveBit := p.outByte.getLsbD p.nbits }
     else { p with drive := false }).countOut
  | .chip, .ignore => { p with drive := false }
  | .responder, .ignore => p
  | _, .off => p
  | _, .cmd => p
  | _, .wdata => p

/-- A whole command byte stands in `shift` (R215): the peripheral's own step takes it. -/
def Periph.commandReady (p : Periph) : Bool := p.mode == .cmd && p.nbits == 8 && p.kind != .absent

/-- The frozen record of a clock-burst read (R69): the eight registers as read at one instant. -/
def Periph.clockSnapshot (p : Periph) : Memory :=
  (List.range Config.clockBurstLen).map (fun a => (a, p.readByte a))

/-- The peripheral takes a command (R215, R216, R222): subspace, burst flag, pointer and direction. -/
def Periph.takeCommand (p : Periph) (rc : Bool) (index : Nat) (isRead : Bool) : Periph :=
  { p with
    nbits := 0, rc := rc, burst := index == 31, ptr := (if index = 31 then 0 else index),
    mode := (if isRead then .rdata else .wdata),
    snapshot := (if p.kind == .chip && isRead && !rc && index == 31 then p.clockSnapshot else p.snapshot) }

/-- The responder ignores the rest of a transaction whose command byte names nothing (R222). -/
def Periph.ignoreCommand (p : Periph) : Periph := { p with nbits := 0, mode := .ignore }

/-- The protocol mode a draw stands for. -/
def PeriphMode.ofDraw (b : Byte) : PeriphMode :=
  match b.toNat % 5 with
  | 0 => .off
  | 1 => .cmd
  | 2 => .wdata
  | 3 => .rdata
  | _ => .ignore

/-- The peripheral after an aborted transaction (R207): every register and its whole protocol state, whether it drives the line
and at which level among it, are draws, the `n`-th ones (log 17). -/
def Periph.scramble (p : Periph) (n : Nat) : Periph :=
  let draw := Config.freeByte .aborted n
  match p.kind with
  | .absent => p
  | .chip | .responder =>
    { p with
      store := [], epoch := p.epoch + 1, snapshot := [], staged := [],
      mode := PeriphMode.ofDraw (draw 0), nbits := (draw 1).toNat % 9, shift := draw 2,
      rc := (draw 3).getLsbD 0, burst := (draw 4).getLsbD 0,
      ptr := if (draw 3).getLsbD 0 then (draw 5).toNat % 31 else (draw 5).toNat % 9,
      drive := (draw 6).getLsbD 0, driveBit := (draw 7).getLsbD 0 }

end Sys2Proof.Machine
end

