-- ==== Sys2Proof/Machine/Trace.lean ====
section
/-! DEFINITION. The four primitives (40_primitives.md R100 to R107) and the traces the operations expand to (41_single_register.md
R130, R131; 42_burst.md R140 to R143), as lists of line events. An entry also says what its step writes besides: the phase
(R108), `bit` and `idx` (R27), and the register a finished byte goes to. -/

namespace Sys2Proof.Machine

open Sys2Proof

/-- Where a byte that `read_bits` returns goes, in the step of its last sample. -/
inductive Dest where
  | nowhere
  /-- `rsp_rdata <- read_bits()` (R130) -/
  | rdata
  /-- `buf[k] <- read_bits()` (R140, R142) -/
  | buf (k : Fin 31)
  deriving DecidableEq, Repr

/-- One event of a trace with what its step writes: the phase it leaves (R108), `bit` and `idx` where it sets them, and where
the received byte goes. -/
structure Entry where
  event : Event
  phase : Phase
  bit   : Option (Fin 8)
  idx   : Option (Fin 31)
  dest  : Dest
  deriving DecidableEq, Repr

/-- An event of `start` or `stop`. -/
def frameEntry (phase : Phase) (e : Event) : Entry := ⟨e, phase, none, none, .nowhere⟩

/-- `start()` (R100). -/
def startEntries : List Entry :=
  [frameEntry .active (.dir .out), frameEntry .active (.ce true), frameEntry .active (.wait .ceSu)]

/-- `stop()` (R101). -/
def stopEntries : List Entry :=
  [frameEntry .closing (.ce false), frameEntry .closing (.wait .ceRec)]

/-- The bit indexes of a byte, least significant first (R64). -/
def bitIndices : List (Fin 8) := [0, 1, 2, 3, 4, 5, 6, 7]

/-- One iteration of `write_bits` (R102); the release branch of bit 7 hands the line off with the clock still high (R103). -/
def writeBit (phase : Phase) (idx : Option (Fin 31)) (v : Byte) (rel : Bool) (i : Fin 8) : List Entry :=
  [⟨.dout (v.getLsbD i.val), phase, some i, idx, .nowhere⟩, ⟨.wait .dsu, phase, some i, idx, .nowhere⟩,
   ⟨.clk true, phase, some i, idx, .nowhere⟩, ⟨.wait .dh, phase, some i, idx, .nowhere⟩] ++
  (if i = 7 ∧ rel then [⟨.dir .in, .lineReleased, some i, idx, .nowhere⟩]
   else [⟨.clk false, phase, some i, idx, .nowhere⟩, ⟨.wait .clr, phase, some i, idx, .nowhere⟩])

/-- `write_bits(v, rel)` (R102). -/
def writeBits (phase : Phase) (idx : Option (Fin 31)) (v : Byte) (rel : Bool) : List Entry :=
  bitIndices.flatMap (writeBit phase idx v rel)

/-- One iteration of `read_bits` (R104); the clock is raised only where it is not already high. -/
def readBit (clkHigh : Bool) (idx : Option (Fin 31)) (dest : Dest) (i : Fin 8) : List Entry :=
  (if clkHigh then [] else [⟨.clk true, .reading, some i, idx, .nowhere⟩]) ++
  [⟨.wait .rh, .reading, some i, idx, .nowhere⟩, ⟨.clk false, .reading, some i, idx, .nowhere⟩,
   ⟨.wait .rl, .reading, some i, idx, .nowhere⟩,
   ⟨.sample i, .reading, some i, idx, if i = 7 then dest else .nowhere⟩]

/-- `read_bits()` (R104, R105). `clkHigh` is the clock at entry: 1 after a hand-off, 0 on every later call; each iteration
leaves it 0. -/
def readBits (clkHigh : Bool) (idx : Option (Fin 31)) (dest : Dest) : List Entry :=
  bitIndices.flatMap (fun i => readBit (clkHigh && i == 0) idx dest i)

/-- READ's trace (R130). -/
def readTrace (cmd : Byte) : List Entry :=
  startEntries ++ writeBits .addressing none cmd true ++ readBits true none .rdata ++ stopEntries

/-- WRITE's trace (R131). -/
def writeTrace (cmd tx : Byte) : List Entry :=
  startEntries ++ writeBits .addressing none cmd false ++ writeBits .writing none tx false ++ stopEntries

/-- The trace of a burst read of `n` bytes (R140, R142): only the first `read_bits` finds the clock high (R105). -/
def burstReadTrace (cmd : Byte) (n : Nat) : List Entry :=
  startEntries ++ writeBits .addressing none cmd true ++
    (burstIndices n).flatMap (fun k => readBits (k == 0) (some k) (.buf k)) ++ stopEntries

/-- The trace of a burst write of the given bytes (R141, R143). -/
def burstWriteTrace (cmd : Byte) (bytes : List (Fin 31 × Byte)) : List Entry :=
  startEntries ++ writeBits .addressing none cmd false ++
    bytes.flatMap (fun kv => writeBits .writing (some kv.1) kv.2 false) ++ stopEntries

/-- The operation a draw stands for, where `op` holds no value. -/
def HostOp.ofDraw (b : Byte) : HostOp :=
  match b.toNat % 6 with
  | 0 => .read
  | 1 => .write
  | 2 => .burstReadClock
  | 3 => .burstWriteClock
  | 4 => .burstReadRam
  | _ => .burstWriteRam

/-- The operation in hand (R27). -/
def State.opInHand (s : State) : HostOp := s.op.getD (HostOp.ofDraw (valueOr .op 0 none))

/-- The command byte in hand (R27). -/
def State.cmdInHand (s : State) : Byte := valueOr .cmd 0 s.cmd

/-- The trace of the operation in hand (R109), read from `op`, `cmd`, `tx` and `buf`. -/
def State.operationTrace (s : State) : List Entry :=
  match s.opInHand with
  | .read => readTrace s.cmdInHand
  | .write => writeTrace s.cmdInHand (valueOr .tx 0 s.tx)
  | .burstReadClock => burstReadTrace s.cmdInHand Config.clockBurstLen
  | .burstReadRam => burstReadTrace s.cmdInHand Config.ramBurstLen
  | .burstWriteClock => burstWriteTrace s.cmdInHand (readRange s.buf (burstIndices Config.clockBurstLen))
  | .burstWriteRam => burstWriteTrace s.cmdInHand (readRange s.buf (burstIndices Config.ramBurstLen))

/-- Whether every register that `operationTrace` reads holds a value (R46). -/
def State.holdsOperands (s : State) : Bool :=
  match s.op with
  | none => false
  | some .read => s.cmd.isSome
  | some .write => s.cmd.isSome && s.tx.isSome
  | some .burstReadClock => s.cmd.isSome
  | some .burstReadRam => s.cmd.isSome
  | some .burstWriteClock => s.cmd.isSome && holdsRange s.buf (burstIndices Config.clockBurstLen)
  | some .burstWriteRam => s.cmd.isSome && holdsRange s.buf (burstIndices Config.ramBurstLen)

/-- The events of a trace. -/
def eventsOf (t : List Entry) : List Event := t.map (fun e => e.event)

/-- How long a delay lasts, in microseconds (R5). -/
def Params.delay (p : Params) (d : Delay) : Nat :=
  match d with
  | .ceSu => p.tCeSu
  | .ceRec => p.tCeRec
  | .dsu => p.tDsu
  | .dh => p.tDh
  | .clr => p.tClr
  | .rh => p.tRh
  | .rl => p.tRl

/-- The microseconds a list of events waits in all (70_reset_and_hazards.md R254). -/
def waitTime (p : Params) (es : List Event) : Nat :=
  match es with
  | [] => 0
  | .wait d :: rest => p.delay d + waitTime p rest
  | .ce _ :: rest => waitTime p rest
  | .clk _ :: rest => waitTime p rest
  | .dout _ :: rest => waitTime p rest
  | .dir _ :: rest => waitTime p rest
  | .sample _ :: rest => waitTime p rest

/-- How many of the events are waits (R254). -/
def waitCount (es : List Event) : Nat :=
  match es with
  | [] => 0
  | .wait _ :: rest => waitCount rest + 1
  | .ce _ :: rest => waitCount rest
  | .clk _ :: rest => waitCount rest
  | .dout _ :: rest => waitCount rest
  | .dir _ :: rest => waitCount rest
  | .sample _ :: rest => waitCount rest

/-- The engine cycles of a trace (R254): one for each event that is no wait, and the ticks of each wait. -/
def cycleCount (p : Params) (es : List Event) : Nat :=
  (es.length - waitCount es) + p.ticksPerUs * waitTime p es

end Sys2Proof.Machine
end

