-- ==== Sys2Proof/Machine/Engine.lean ====
section
/-! DEFINITION. The engine's step (40_primitives.md R109), the delay unit (R29, R110), the resolution of the data line
(60_exceptions.md R205), the completion of an operation (R108), the init-policy sequence (43_init.md R160, R161) and reset
(70_reset_and_hazards.md R240, R241). -/

namespace Sys2Proof.Machine

open Sys2Proof

/-- The data line's level (R205). Nobody driving or both driving: a free level. -/
def State.line (s : State) : Bool :=
  match s.dir with
  | .out => if s.periph.drive then Config.freeLevel s.draws else s.dout
  | .in => if s.periph.drive then s.periph.driveBit else Config.freeLevel s.draws

/-- What an event does to the latches, to `rx` and `wait_ctr`, and to the peripheral that watches the lines (R24, R106, R29,
R213, R214, R221). -/
def applyEvent (e : Event) (s : State) : State :=
  match e with
  | .ce level =>
    { s with ce := level, periph := if level then s.periph.enable else s.periph.disable }
  | .clk level =>
    { s with
      clk := level,
      periph :=
        if level && !s.clk then s.periph.rise s.line
        else if !level && s.clk then s.periph.fall
        else s.periph }
  | .dout level => { s with dout := level }
  | .dir d => { s with dir := d }
  | .sample k => { s with rx := Cells.write s.rx k.val s.line }
  | .wait d => { s with waitCtr := some (s.params.delay d * s.params.ticksPerUs) }

/-- Once a transaction has been aborted, every event leaves the peripheral in any state (R207). -/
def State.afterAbort (s : State) : State := if s.aborted then { s with periph := s.periph.scramble s.draws } else s

/-- Append the event to the trace (R9) and count it for the free levels. -/
def State.record (e : Event) (s : State) : State := { s with trace := e :: s.trace, draws := s.draws + 1 }

/-- Record CONTENTION where the engine and the peripheral both drive the data line (R206). -/
def State.noteContention (s : State) : State :=
  { s with contention := s.contention || (s.dir == .out && s.periph.drive) }

/-- `emit(e)` (R9). -/
def emit (e : Event) (s : State) : State := ((applyEvent e s).afterAbort.record e).noteContention

/-- Record the read of a register that holds no value, if there was one (R46, U23). -/
def State.noteRead (s : State) (held : Bool) : State := { s with noValueRead := s.noValueRead || !held }

/-- The byte in `rx` (R104 "return rx"), or a free one where a bit of it holds no value. -/
def State.received (s : State) : Byte := valueOr .rx s.draws (assemble s.rx)

/-- Put a received byte where the trace says (R130, R140, R142). -/
def deliver (dest : Dest) (s : State) : State :=
  match dest with
  | .nowhere => s
  | .rdata => { s.noteRead (assemble s.rx).isSome with rspRdata := some s.received }
  | .buf k => { s.noteRead (assemble s.rx).isSome with buf := Cells.write s.buf k.val s.received }

/-- The phase, `bit` and `idx` an entry sets (R108, R27). `bit` and `idx` are set at every event of their byte and keep their
values through `stop()` and after: DESIGN CHOICE, log 31. -/
def Entry.mark (e : Entry) (s : State) : State :=
  { s with
    phase := e.phase,
    bit := (match e.bit with | none => s.bit | some i => some i),
    idx := (match e.idx with | none => s.idx | some k => some k) }

/-- The position advances by 1 (R109). -/
def State.advance (s : State) : State := { s with pos := s.pos + 1 }

/-- One step of the sequencer (R109): the entry's event and what goes with it. -/
def performEntry (e : Entry) (s : State) : State := (deliver e.dest (emit e.event (e.mark s))).advance

/-- The response of an operation that ran (R108): a burst read's bytes go to `rsp_rbuf` (R140, R142), the status is OK and
`rsp_valid` is set. -/
def State.respond (s : State) (rbuf : Memory) : State :=
  { s with phase := .idle, rspRbuf := rbuf, rspStatus := some .ok, rspValid := true }

/-- A burst read's bytes to `rsp_rbuf`, then the response. -/
def State.respondBytes (s : State) (n : Nat) : State :=
  (s.noteRead (holdsRange s.buf (burstIndices n))).respond (cellsOf (readRange s.buf (burstIndices n)))

/-- The end of a write of the init sequence (R160, R161): no response; after the second, the sequence is over. -/
def State.finishInit (s : State) : State :=
  { s with phase := .idle, initSecond := !s.initSecond, initPending := !s.initSecond }

/-- The recovery wait of `stop` has elapsed (R108). -/
def State.complete (s : State) : State :=
  if s.initPending then s.finishInit
  else
    match s.opInHand with
    | .read => s.respond s.rspRbuf
    | .write => s.respond s.rspRbuf
    | .burstWriteClock => s.respond s.rspRbuf
    | .burstWriteRam => s.respond s.rspRbuf
    | .burstReadClock => s.respondBytes Config.clockBurstLen
    | .burstReadRam => s.respondBytes Config.ramBurstLen

/-- One tick of the delay unit (R29). -/
def State.tick (s : State) (n : Nat) : State := { s with waitCtr := some n }

/-- Perform the event at the sequencer position; past the last event, complete (R109, R108). -/
def nextEvent (s : State) : State :=
  match s.operationTrace[s.pos]? with
  | some e => performEntry e (s.noteRead s.holdsOperands)
  | none => (s.noteRead s.holdsOperands).complete

/-- The engine's step while an operation is in hand (R109, R110): while `wait_ctr` is not 0 it counts down and no event is
emitted (R29); otherwise the next event or the completion. -/
def sequencerStep (s : State) : State :=
  match s.waitCtr with
  | some (n + 1) => s.tick n
  | some 0 => nextEvent s
  | none => nextEvent s

/-- Begin the next write of the init sequence (R160, R162): first CONTROL, then TRICKLE. It gives the host no response, so the
response registers stay as reset left them (R161). -/
def State.beginInit (s : State) : State :=
  if s.initSecond then s.beginOp .write (writeCommand s.params.regMap.trickle) Config.initTrickleValue []
  else s.beginOp .write (writeCommand s.params.regMap.control) Config.initControlValue []

/-- What reset does to the peripheral (R48, R207, R240): an aborted transaction leaves it in any state, the `n`-th draws. At IDLE
nothing, but that CE falls if it was high. -/
def Periph.atReset (p : Periph) (ce abort : Bool) (n : Nat) : Periph :=
  if abort then p.scramble n else if ce then p.disable else p

/-- Reset (R47, R240, R241): every piece of engine state takes its reset value, `cfg_init_clear` is sampled into
`init_pending`, and a reset while the phase is not IDLE records ABORTED_TRANSACTION. No line event is recorded. -/
def State.takeReset (s : State) : State :=
  { s with
    phase := .idle, pos := 0, initPending := s.cfgInitClear, initSecond := false,
    ce := false, clk := false, dout := false, dir := .in,
    rspValid := false, rspStatus := none, rspRdata := none, rspRbuf := [],
    op := none, cmd := none, tx := none, rx := [], bit := none, idx := none, buf := [], waitCtr := none,
    aborted := s.aborted || s.phase != .idle,
    draws := s.draws + 1,
    periph := s.periph.atReset s.ce (s.phase != .idle) s.draws }

end Sys2Proof.Machine
end

