-- ==== Sys2Proof/Machine/Commands.lean ====
section
/-! DEFINITION. The meanings of the twenty-four command bytes (30_encoding.md R80, R83, R86): what the peripheral does with the
first byte of a transaction (60_exceptions.md R215, R216, R222). -/

namespace Sys2Proof.Machine

open Sys2Proof

/-- The peripheral takes a command (R215, R216, R222). Where nothing is wired to the lines, nothing takes it (R130). -/
def takeCommand (rc : Bool) (index : Nat) (isRead : Bool) (s : State) : Outcome :=
  match s.periph.kind with
  | .absent => .next s
  | .chip => .next { s with periph := s.periph.takeCommand rc index isRead }
  | .responder => .next { s with periph := s.periph.takeCommand rc index isRead }

/-- `SECONDS`, write form (R34): the next byte goes to clock-space register 0. -/
def execCmdWriteSeconds (s : State) : Outcome := takeCommand false 0 false s
/-- `SECONDS`, read form (R34): clock-space register 0 is sent. -/
def execCmdReadSeconds (s : State) : Outcome := takeCommand false 0 true s
/-- `MINUTES`, write form (R34): the next byte goes to clock-space register 1. -/
def execCmdWriteMinutes (s : State) : Outcome := takeCommand false 1 false s
/-- `MINUTES`, read form (R34): clock-space register 1 is sent. -/
def execCmdReadMinutes (s : State) : Outcome := takeCommand false 1 true s
/-- `HOURS`, write form (R34): the next byte goes to clock-space register 2. -/
def execCmdWriteHours (s : State) : Outcome := takeCommand false 2 false s
/-- `HOURS`, read form (R34): clock-space register 2 is sent. -/
def execCmdReadHours (s : State) : Outcome := takeCommand false 2 true s
/-- `DATE`, write form (R34): the next byte goes to clock-space register 3. -/
def execCmdWriteDate (s : State) : Outcome := takeCommand false 3 false s
/-- `DATE`, read form (R34): clock-space register 3 is sent. -/
def execCmdReadDate (s : State) : Outcome := takeCommand false 3 true s
/-- `MONTH`, write form (R34): the next byte goes to clock-space register 4. -/
def execCmdWriteMonth (s : State) : Outcome := takeCommand false 4 false s
/-- `MONTH`, read form (R34): clock-space register 4 is sent. -/
def execCmdReadMonth (s : State) : Outcome := takeCommand false 4 true s
/-- `WEEKDAY`, write form (R34): the next byte goes to clock-space register 5. -/
def execCmdWriteWeekday (s : State) : Outcome := takeCommand false 5 false s
/-- `WEEKDAY`, read form (R34): clock-space register 5 is sent. -/
def execCmdReadWeekday (s : State) : Outcome := takeCommand false 5 true s
/-- `YEAR`, write form (R34): the next byte goes to clock-space register 6. -/
def execCmdWriteYear (s : State) : Outcome := takeCommand false 6 false s
/-- `YEAR`, read form (R34): clock-space register 6 is sent. -/
def execCmdReadYear (s : State) : Outcome := takeCommand false 6 true s
/-- `CONTROL`, write form (R34): the next byte goes to clock-space register 7. -/
def execCmdWriteControl (s : State) : Outcome := takeCommand false 7 false s
/-- `CONTROL`, read form (R34): clock-space register 7 is sent. -/
def execCmdReadControl (s : State) : Outcome := takeCommand false 7 true s
/-- `TRICKLE`, write form (R34): the next byte goes to clock-space register 8. -/
def execCmdWriteTrickle (s : State) : Outcome := takeCommand false 8 false s
/-- `TRICKLE`, read form (R34): clock-space register 8 is sent. -/
def execCmdReadTrickle (s : State) : Outcome := takeCommand false 8 true s
/-- `RAM(n)`, write form (R34): the next byte goes to `RAM(n)`. -/
def execCmdWriteRam (n : BitVec 5) (s : State) : Outcome := takeCommand true n.toNat false s
/-- `RAM(n)`, read form (R34): `RAM(n)` is sent. -/
def execCmdReadRam (n : BitVec 5) (s : State) : Outcome := takeCommand true n.toNat true s
/-- `CLOCK_BURST`, write form (R86, R216): the bytes to come go to clock-space registers 0, 1, ... -/
def execCmdWriteClockBurst (s : State) : Outcome := takeCommand false 31 false s
/-- `CLOCK_BURST`, read form (R86, R216, R69): clock-space registers 0, 1, ... are sent, from one snapshot. -/
def execCmdReadClockBurst (s : State) : Outcome := takeCommand false 31 true s
/-- `RAM_BURST`, write form (R86, R216): the bytes to come go to `RAM(0)`, `RAM(1)`, ... -/
def execCmdWriteRamBurst (s : State) : Outcome := takeCommand true 31 false s
/-- `RAM_BURST`, read form (R86, R216): `RAM(0)`, `RAM(1)`, ... are sent. -/
def execCmdReadRamBurst (s : State) : Outcome := takeCommand true 31 true s

end Sys2Proof.Machine
end

