-- ==== Sys2Proof/Machine/HostOps.lean ====
section
/-! DEFINITION. The meanings of the eight host requests (30_encoding.md R90, R91): what the step in which a request is presented
does. A valid request is accepted, and its trace runs in the steps after (41_single_register.md, 42_burst.md); an invalid one is
rejected in the same step (60_exceptions.md R201, R202). -/

namespace Sys2Proof.Machine

open Sys2Proof

/-- A request takes effect only in a step with `req_ready` = 1 (R25). While the engine is busy nothing happens to it (R225). -/
def onRequest (s answered : State) : Outcome := if s.reqReady then .next answered else .next s

/-- READ and WRITE check the address operand before any line event (R87, R201). -/
def State.acceptAt (s : State) (addr : Byte) (op : HostOp) (cmd tx : Byte) : State :=
  if validAddr s.params.regMap addr then s.accept op cmd tx [] else s.reject .invalidAddress

/-- The RAM bursts are operations only where `HAS_RAM_BURST` is true (R91). -/
def State.acceptRamBurst (s : State) (op : HostOp) (cmd tx : Byte) (buf : Memory) : State :=
  if s.params.hasRamBurst then s.accept op cmd tx buf else s.reject .invalidOperation

/-- READ (R130). -/
def execRead (addr wdata : Byte) (s : State) : Outcome :=
  onRequest s (s.acceptAt addr .read (readCommand addr) wdata)

/-- WRITE (R131). -/
def execWrite (addr wdata : Byte) (s : State) : Outcome :=
  onRequest s (s.acceptAt addr .write (writeCommand addr) wdata)

/-- BURST_READ_CLOCK (R140); `addr` is ignored (R89). -/
def execBurstReadClock (_addr wdata : Byte) (s : State) : Outcome :=
  onRequest s (s.accept .burstReadClock (readCommand s.params.regMap.clockBurst) wdata [])

/-- BURST_WRITE_CLOCK (R141): the payload goes to `buf` (R25); `addr` is ignored (R89). -/
def execBurstWriteClock (_addr wdata : Byte) (payload : List Byte) (s : State) : Outcome :=
  onRequest s (s.accept .burstWriteClock (writeCommand s.params.regMap.clockBurst) wdata
    (payloadCells Config.clockBurstLen payload))

/-- BURST_READ_RAM (R142); `addr` is ignored (R89). -/
def execBurstReadRam (_addr wdata : Byte) (s : State) : Outcome :=
  onRequest s (s.acceptRamBurst .burstReadRam (readCommand s.params.regMap.ramBurst) wdata [])

/-- BURST_WRITE_RAM (R143): the payload goes to `buf` (R25); `addr` is ignored (R89). -/
def execBurstWriteRam (_addr wdata : Byte) (payload : List Byte) (s : State) : Outcome :=
  onRequest s (s.acceptRamBurst .burstWriteRam (writeCommand s.params.regMap.ramBurst) wdata
    (payloadCells Config.ramBurstLen payload))

/-- The reserved code 6 (R91, R202), whatever its operands (R204). -/
def execReservedOp6 (_addr _wdata : Byte) (s : State) : Outcome := onRequest s (s.reject .invalidOperation)

/-- The reserved code 7 (R91, R202), whatever its operands (R204). -/
def execReservedOp7 (_addr _wdata : Byte) (s : State) : Outcome := onRequest s (s.reject .invalidOperation)

end Sys2Proof.Machine
end

