-- ==== Sys2Proof/Machine/Dispatch.lean ====
section
/-! DEFINITION. One arm per instruction, each a direct call of its meaning. -/

namespace Sys2Proof.Machine

open Sys2Proof

def exec (i : Instr) (s : State) : Host.Outcome State Fault Refusal :=
  match i with
  | .read addr wdata => Sys2Proof.Machine.execRead addr wdata s
  | .write addr wdata => Sys2Proof.Machine.execWrite addr wdata s
  | .burstReadClock addr wdata => Sys2Proof.Machine.execBurstReadClock addr wdata s
  | .burstWriteClock addr wdata payload => Sys2Proof.Machine.execBurstWriteClock addr wdata payload s
  | .burstReadRam addr wdata => Sys2Proof.Machine.execBurstReadRam addr wdata s
  | .burstWriteRam addr wdata payload => Sys2Proof.Machine.execBurstWriteRam addr wdata payload s
  | .reservedOp6 addr wdata => Sys2Proof.Machine.execReservedOp6 addr wdata s
  | .reservedOp7 addr wdata => Sys2Proof.Machine.execReservedOp7 addr wdata s
  | .cmdWriteSeconds => Sys2Proof.Machine.execCmdWriteSeconds s
  | .cmdReadSeconds => Sys2Proof.Machine.execCmdReadSeconds s
  | .cmdWriteMinutes => Sys2Proof.Machine.execCmdWriteMinutes s
  | .cmdReadMinutes => Sys2Proof.Machine.execCmdReadMinutes s
  | .cmdWriteHours => Sys2Proof.Machine.execCmdWriteHours s
  | .cmdReadHours => Sys2Proof.Machine.execCmdReadHours s
  | .cmdWriteDate => Sys2Proof.Machine.execCmdWriteDate s
  | .cmdReadDate => Sys2Proof.Machine.execCmdReadDate s
  | .cmdWriteMonth => Sys2Proof.Machine.execCmdWriteMonth s
  | .cmdReadMonth => Sys2Proof.Machine.execCmdReadMonth s
  | .cmdWriteWeekday => Sys2Proof.Machine.execCmdWriteWeekday s
  | .cmdReadWeekday => Sys2Proof.Machine.execCmdReadWeekday s
  | .cmdWriteYear => Sys2Proof.Machine.execCmdWriteYear s
  | .cmdReadYear => Sys2Proof.Machine.execCmdReadYear s
  | .cmdWriteControl => Sys2Proof.Machine.execCmdWriteControl s
  | .cmdReadControl => Sys2Proof.Machine.execCmdReadControl s
  | .cmdWriteTrickle => Sys2Proof.Machine.execCmdWriteTrickle s
  | .cmdReadTrickle => Sys2Proof.Machine.execCmdReadTrickle s
  | .cmdWriteRam n => Sys2Proof.Machine.execCmdWriteRam n s
  | .cmdReadRam n => Sys2Proof.Machine.execCmdReadRam n s
  | .cmdWriteClockBurst => Sys2Proof.Machine.execCmdWriteClockBurst s
  | .cmdReadClockBurst => Sys2Proof.Machine.execCmdReadClockBurst s
  | .cmdWriteRamBurst => Sys2Proof.Machine.execCmdWriteRamBurst s
  | .cmdReadRamBurst => Sys2Proof.Machine.execCmdReadRamBurst s

end Sys2Proof.Machine
end

