-- ==== Sys2Proof/Machine/HostAgent.lean ====
section
/-! DEFINITION. The host (60_exceptions.md R225): what it puts on the request port and the reset input for the next step. -/

namespace Sys2Proof.Machine

open Sys2Proof

/-- The host's turn at the end of a step (R225). A request it holds stays on the port until it is accepted or rejected.
Otherwise the host makes its next move, which may be to lower `req_valid`, to put up another request or to reset, whether or not
a request it showed for one step was answered; with no move left it presents nothing. Reset lasts one step, in which the host
presents nothing: DESIGN CHOICE, log 3 (R225 puts no duty on `req_valid` there, and a step that takes reset answers nothing). -/
def hostTurn (taken : Bool) (s : State) : State :=
  if s.port.valid && s.port.held && !taken then { s with rst := false }
  else
    match s.script with
    | [] => { s with port := { s.port with valid := false }, rst := false }
    | .request r :: rest => { s with port := ⟨true, true, r⟩, rst := false, script := rest }
    | .present r :: rest => { s with port := ⟨true, false, r⟩, rst := false, script := rest }
    | .hold :: rest => { s with port := { s.port with valid := false }, rst := false, script := rest }
    | .reset cfg :: rest =>
      { s with port := { s.port with valid := false }, rst := true, cfgInitClear := cfg, script := rest }

end Sys2Proof.Machine
end

