-- ==== Sys2Proof/Machine/Fetch.lean ====
section
/-! DEFINITION. Whose move a step is (10_state.md R20), and the instruction it fetches: from the peripheral's shift register a
command byte (60_exceptions.md R215), from the request port a request (10_state.md R25). -/

namespace Sys2Proof.Machine

open Sys2Proof

/-- What a step does. -/
inductive Turn where
  /-- reset is asserted (R240) -/
  | reset
  /-- the peripheral takes a whole command byte (R215) -/
  | command (i : Instr)
  /-- the peripheral has a command byte that names nothing (R218, R222) -/
  | badCommand
  /-- the sequencer has an operation in hand (R109) -/
  | sequencer
  /-- an init write is pending (R161) -/
  | init
  /-- the host presents a request and `req_ready` is 1 (R25) -/
  | request (i : Instr)
  /-- the engine waits for a request (R241) -/
  | waiting
  deriving DecidableEq, Repr

/-- The request on the port, decoded (R90). -/
def Port.instr (p : Port) : Instr :=
  decodeRequest p.request.op p.request.addr p.request.wdata (p.payload (payloadLen p.request.op))

/-- The map by which the peripheral reads a command byte: the chip by the build's `REGMAP` (R34, R218), the responder by the bits
R222 names, which are those of the default map (log 32). -/
def State.commandMap (s : State) : RegMap :=
  match s.periph.kind with
  | .chip => s.params.regMap
  | .responder => Config.regMap
  | .absent => Config.regMap

/-- Whose move it is. Reset comes first (R240 "at once"); a request presented while `req_ready` is 1 is answered in that very step
(R25); a command byte is taken before the next event (log 1); then the sequencer, and the init sequence (R161). -/
def State.turn (s : State) : Turn :=
  if s.rst then .reset
  else if s.reqReady && s.port.valid then .request s.port.instr
  else if s.periph.commandReady then
    match decodeCommand s.commandMap s.periph.shift with
    | .ok i => .command i
    | .error _ => .badCommand
  else if s.phase != .idle then .sequencer
  else if s.initPending then .init
  else .waiting

/-- A command byte that names nothing: the responder ignores the transaction (R222); for the chip it is undefined behaviour
(R218, U1), unless an abort has left it in any state (R207). -/
def State.badCommand (s : State) : Outcome :=
  match s.periph.kind with
  | .responder => .next { s with periph := s.periph.ignoreCommand }
  | .chip =>
    if s.aborted then .next { s with periph := s.periph.ignoreCommand } else .refused (.undefinedCommand s.periph.shift)
  | .absent => .next s

/-- Put a command byte of the opcode table where the peripheral's next step takes it: no request is on the port. The table's bytes
are those of the default map; an absent peripheral takes none, so the chip is wired up. -/
def State.placeCommand (s : State) (c : Byte) : State :=
  { s with
    rst := false, port := { s.port with valid := false }, params := { s.params with regMap := Config.regMap },
    periph := { s.periph with
      kind := (if s.periph.kind = .absent then .chip else s.periph.kind), mode := .cmd, nbits := 8, shift := c } }

/-- Put a request word on the port of an engine that is ready for it, the payload all zeros. -/
def State.placeRequest (s : State) (w : BitVec 19) : State :=
  { s with
    rst := false, phase := .idle, initPending := false,
    port := ⟨true, true, ⟨w.extractLsb' 0 3, w.extractLsb' 3 8, w.extractLsb' 11 8, List.replicate 31 0⟩⟩ }

end Sys2Proof.Machine
end

