-- ==== Sys2Proof/Machine/Step.lean ====
section
/-! DEFINITION. One step of the machine: one agent's move, then the host's turn (10_state.md R20). -/

namespace Sys2Proof.Machine

open Sys2Proof

/-- One step. The request that is on the port has been answered in a step that runs it, and in no other. -/
def step (s : State) : Host.Outcome State Fault Refusal :=
  match s.turn with
  | .reset => .next (hostTurn false s.takeReset)
  | .command i => mapNext (exec i s) (hostTurn false)
  | .badCommand => mapNext s.badCommand (hostTurn false)
  | .sequencer => .next (hostTurn false (sequencerStep s))
  | .init => .next (hostTurn false s.beginInit)
  | .request i => mapNext (exec i s) (hostTurn true)
  | .waiting => .next (hostTurn false s)

/-- `s` with the instruction whose table bits are `w` where the next step fetches it: a command byte in the peripheral's
shift register, a request on the port, whether its word comes whole or in the eight bits the table fixes (log 3, log 20). -/
def State.withFetchWord (s : State) (nbits w : Nat) : State :=
  if tableIsCommand nbits w then s.placeCommand (BitVec.ofNat 8 w) else s.placeRequest (BitVec.ofNat 19 w)

end Sys2Proof.Machine
end

