-- ==== Sys2Proof/Machine/Assembler.lean ====
section
/-! DEFINITION. The source syntax of host programs (30_encoding.md R93) and its pseudo-instructions (R94): a line of characters
to the requests it stands for, under the build's `REGMAP`. -/

namespace Sys2Proof.Machine

open Sys2Proof

/-- Why a line is refused (R93). -/
inductive AsmError where
  | unknownMnemonic
  | wrongOperandCount
  | badOperand
  deriving DecidableEq, Repr

/-- The value of a digit in a base, if it is one. -/
def digitOf (base : Nat) (c : Char) : Option Nat :=
  let n := c.toNat
  let d := if 48 ≤ n ∧ n ≤ 57 then n - 48
    else if 97 ≤ n ∧ n ≤ 102 then n - 87
    else if 65 ≤ n ∧ n ≤ 70 then n - 55
    else 99
  if d < base then some d else none

/-- Digits, most significant first. -/
def digitsValue (base acc : Nat) (cs : List Char) : Option Nat :=
  match cs with
  | [] => some acc
  | c :: rest =>
    match digitOf base c with
    | some d => digitsValue base (acc * base + d) rest
    | none => none

/-- A number: hexadecimal, binary or decimal (R93). -/
def parseNumber (cs : List Char) : Option Nat :=
  match cs with
  | [] => none
  | '0' :: 'x' :: d :: rest => digitsValue 16 0 (d :: rest)
  | '0' :: 'b' :: d :: rest => digitsValue 2 0 (d :: rest)
  | c :: rest => digitsValue 10 0 (c :: rest)

/-- An 8-bit number; one outside 0 to 255 is refused (R93). -/
def parseByte (cs : List Char) : Option Byte :=
  match parseNumber cs with
  | some n => if n ≤ 255 then some (BitVec.ofNat 8 n) else none
  | none => none

/-- The index of a RAM byte, 0 to 30 (R94). -/
def parseRamIndex (cs : List Char) : Option Nat :=
  match parseNumber cs with
  | some n => if n ≤ 30 then some n else none
  | none => none

/-- The `REGMAP` names an address may be written with (R93), each standing for its write form. -/
def addressNames (m : RegMap) : List (List Char × Byte) :=
  [("SECONDS".toList, m.seconds), ("MINUTES".toList, m.minutes),
   ("HOURS".toList, m.hours), ("DATE".toList, m.date),
   ("MONTH".toList, m.month), ("WEEKDAY".toList, m.weekday),
   ("YEAR".toList, m.year), ("CONTROL".toList, m.control),
   ("TRICKLE".toList, m.trickle), ("CLOCK_BURST".toList, m.clockBurst),
   ("RAM_BURST".toList, m.ramBurst)]

/-- The value a name has in a list, if it is there. -/
def lookupName (cs : List Char) (names : List (List Char × Byte)) : Option Byte :=
  match names with
  | [] => none
  | (n, v) :: rest => if cs = n then some v else lookupName cs rest

/-- `RAM(n)` (R93). -/
def parseRamName (m : RegMap) (cs : List Char) : Option Byte :=
  match cs with
  | 'R' :: 'A' :: 'M' :: '(' :: rest =>
    match rest.reverse with
    | ')' :: n => (parseRamIndex n.reverse).map m.ram
    | _ => none
  | _ => none

/-- An address operand: a number, a name or `RAM(n)` (R93). A number that R87 refuses is still an address here. -/
def parseAddr (m : RegMap) (cs : List Char) : Option Byte :=
  match lookupName cs (addressNames m) with
  | some v => some v
  | none =>
    match parseRamName m cs with
    | some v => some v
    | none => parseByte cs

/-- Whether a character is blank. -/
def isBlank (c : Char) : Bool := c == ' ' || c == '\t'

/-- Without the blanks at either end. -/
def trim (cs : List Char) : List Char := ((cs.dropWhile isBlank).reverse.dropWhile isBlank).reverse

/-- The fields between commas. -/
def splitCommas (cs : List Char) : List (List Char) :=
  match cs with
  | [] => [[]]
  | c :: rest =>
    if c = ',' then [] :: splitCommas rest
    else
      match splitCommas rest with
      | [] => [[c]]
      | field :: fields => (c :: field) :: fields

/-- The operands of a line: none where nothing stands there. -/
def operandsOf (cs : List Char) : List (List Char) :=
  match trim cs with
  | [] => []
  | c :: rest => (splitCommas (c :: rest)).map trim

/-- Every operand as an 8-bit number. -/
def parseBytes (ops : List (List Char)) : Option (List Byte) :=
  match ops with
  | [] => some []
  | o :: rest =>
    match parseByte o, parseBytes rest with
    | some b, some bs => some (b :: bs)
    | _, _ => none

/-- A request with no payload. -/
def simpleRequest (op : BitVec 3) (addr wdata : Byte) : Request := ⟨op, addr, wdata, []⟩

/-- The pseudo-instructions (R94). -/
inductive Pseudo where
  | readRam (n : Nat)
  | writeRam (n : Nat) (v : Byte)
  | clearWp
  | disableTrickle
  | initPolicy
  deriving DecidableEq, Repr

/-- The requests a pseudo-instruction expands to (R94); a RAM index above 30 has none. -/
def expand (m : RegMap) (p : Pseudo) : Option (List Request) :=
  match p with
  | .readRam n => if n ≤ 30 then some [simpleRequest 0 (m.ram n) 0] else none
  | .writeRam n v => if n ≤ 30 then some [simpleRequest 1 (m.ram n) v] else none
  | .clearWp => some [simpleRequest 1 m.control Config.initControlValue]
  | .disableTrickle => some [simpleRequest 1 m.trickle Config.initTrickleValue]
  | .initPolicy =>
    some [simpleRequest 1 m.control Config.initControlValue,
          simpleRequest 1 m.trickle Config.initTrickleValue]

/-- The result, or a bad operand. -/
def orBadOperand (r : Option (List Request)) : Except AsmError (List Request) :=
  match r with
  | some q => .ok q
  | none => .error .badOperand

/-- A mnemonic that takes no operand. -/
def noOperands (ops : List (List Char)) (q : Option (List Request)) : Except AsmError (List Request) :=
  match ops with
  | [] => orBadOperand q
  | _ :: _ => .error .wrongOperandCount

/-- A mnemonic that takes one operand. -/
def oneOperand (ops : List (List Char)) (f : List Char → Option (List Request)) : Except AsmError (List Request) :=
  match ops with
  | [a] => orBadOperand (f a)
  | _ => .error .wrongOperandCount

/-- A mnemonic that takes two operands. -/
def twoOperands (ops : List (List Char)) (f : List Char → List Char → Option (List Request)) :
    Except AsmError (List Request) :=
  match ops with
  | [a, b] => orBadOperand (f a b)
  | _ => .error .wrongOperandCount

/-- A burst write: exactly `n` bytes (R93). -/
def burstOperands (op : BitVec 3) (n : Nat) (ops : List (List Char)) : Except AsmError (List Request) :=
  if ops.length = n then orBadOperand ((parseBytes ops).map (fun bs => [⟨op, 0, 0, bs⟩]))
  else .error .wrongOperandCount

/-- A mnemonic and its operands (R93, R94). -/
def assembleParts (m : RegMap) (mn : List Char) (ops : List (List Char)) : Except AsmError (List Request) :=
  if mn = "READ".toList then oneOperand ops (fun a => (parseAddr m a).map (fun x => [simpleRequest 0 x 0]))
  else if mn = "WRITE".toList then
    twoOperands ops (fun a b =>
      match parseAddr m a, parseByte b with
      | some x, some v => some [simpleRequest 1 x v]
      | _, _ => none)
  else if mn = "BURST_READ_CLOCK".toList then noOperands ops (some [simpleRequest 2 0 0])
  else if mn = "BURST_WRITE_CLOCK".toList then burstOperands 3 Config.clockBurstLen ops
  else if mn = "BURST_READ_RAM".toList then noOperands ops (some [simpleRequest 4 0 0])
  else if mn = "BURST_WRITE_RAM".toList then burstOperands 5 Config.ramBurstLen ops
  else if mn = "READ_RAM".toList then oneOperand ops (fun a => (parseRamIndex a).bind (fun n => expand m (.readRam n)))
  else if mn = "WRITE_RAM".toList then
    twoOperands ops (fun a b =>
      match parseRamIndex a, parseByte b with
      | some n, some v => expand m (.writeRam n v)
      | _, _ => none)
  else if mn = "CLEAR_WP".toList then noOperands ops (expand m .clearWp)
  else if mn = "DISABLE_TRICKLE".toList then noOperands ops (expand m .disableTrickle)
  else if mn = "INIT_POLICY".toList then noOperands ops (expand m .initPolicy)
  else .error .unknownMnemonic

/-- One source line (R93): what stands before a semicolon; a blank line gives no request. -/
def assembleLine (m : RegMap) (line : List Char) : Except AsmError (List Request) :=
  match trim (line.takeWhile (fun c => c != ';')) with
  | [] => .ok []
  | c :: rest =>
    assembleParts m ((c :: rest).takeWhile (fun x => !isBlank x))
      (operandsOf ((c :: rest).dropWhile (fun x => !isBlank x)))

/-- The packed word of a request (R89). -/
def Request.word (r : Request) : BitVec 19 := requestWord r.op r.addr r.wdata

/-- A program: the host's moves for the requests of its lines, in order (R227). The first line refused refuses it. -/
def assembleProgram (m : RegMap) (lines : List (List Char)) : Except AsmError (List HostMove) :=
  match lines with
  | [] => .ok []
  | line :: rest =>
    match assembleLine m line, assembleProgram m rest with
    | .ok qs, .ok moves => .ok (qs.map HostMove.request ++ moves)
    | .ok _, .error e => .error e
    | .error e, _ => .error e

end Sys2Proof.Machine
end

