-- ==== Sys2Proof/Machine/Codec.lean ====
section
/-! DEFINITION. The Clock Burst Record and the BCD codec (44_record_codec.md R170 to R184), and the fields of the trickle-charge
register (10_state.md R43): pure functions over bytes, which the engine's datapath never calls. Outside its domain a function has no result: `none` (log 28). -/

namespace Sys2Proof.Machine

open Sys2Proof

/-- `bcd_enc` (R170): the tens digit in the high nibble; defined for 0 to 99. -/
def bcdEnc (n : Nat) : Option Byte :=
  if n ≤ 99 then some ((BitVec.ofNat 8 (n / 10) <<< 4) ||| BitVec.ofNat 8 (n % 10)) else none

/-- `bcd_dec` (R171): arithmetic on the two nibbles, with no check of the digits. -/
def bcdDec (b : Byte) : Nat := (b.extractLsb' 4 4).toNat * 10 + (b.extractLsb' 0 4).toNat

/-- The Clock Burst Record (R172): a flat buffer of eight bytes; byte k is clock-space register k. -/
structure ClockRecord where
  byte0 : Byte
  byte1 : Byte
  byte2 : Byte
  byte3 : Byte
  byte4 : Byte
  byte5 : Byte
  byte6 : Byte
  byte7 : Byte
  deriving DecidableEq, Repr

/-- The record as the bytes of a burst, in order (R65). -/
def ClockRecord.bytes (r : ClockRecord) : List Byte :=
  [r.byte0, r.byte1, r.byte2, r.byte3, r.byte4, r.byte5, r.byte6, r.byte7]

/-- The record a clock-burst read left in `rsp_rbuf` (R140), if its eight bytes hold values. -/
def recordOf (m : Memory) : Option ClockRecord :=
  match Cells.read m 0, Cells.read m 1, Cells.read m 2, Cells.read m 3,
        Cells.read m 4, Cells.read m 5, Cells.read m 6, Cells.read m 7 with
  | some b0, some b1, some b2, some b3, some b4, some b5, some b6, some b7 => some ⟨b0, b1, b2, b3, b4, b5, b6, b7⟩
  | _, _, _, _, _, _, _, _ => none

/-- The half of the day in the 12-hour view (R175). -/
inductive Meridiem where
  | am
  | pm
  deriving DecidableEq, Repr

/-- The hour as a tagged variant (R175): one view or the other, never both. -/
inductive Hour where
  | hour24 (value : Nat)
  | hour12 (value : Nat) (meridiem : Meridiem)
  deriving DecidableEq, Repr

/-- `seconds(rec)` (R173). -/
def secondsOf (r : ClockRecord) : Nat := bcdDec (r.byte0 &&& 0x7F)
/-- `clock_halt(rec)` (R173). -/
def clockHaltOf (r : ClockRecord) : Bool := r.byte0.getLsbD 7
/-- `minutes(rec)` (R174). -/
def minutesOf (r : ClockRecord) : Nat := bcdDec (r.byte1 &&& 0x7F)
/-- `hour(rec)` (R175): bit 7 tells the view, bit 6 is ignored. -/
def hourOf (r : ClockRecord) : Hour :=
  if r.byte2.getLsbD 7 then .hour12 (bcdDec (r.byte2 &&& 0x1F)) (if r.byte2.getLsbD 5 then .pm else .am)
  else .hour24 (bcdDec (r.byte2 &&& 0x3F))
/-- `day_of_month(rec)` (R176). -/
def dayOfMonthOf (r : ClockRecord) : Nat := bcdDec (r.byte3 &&& 0x3F)
/-- `month(rec)` (R177). -/
def monthOf (r : ClockRecord) : Nat := bcdDec (r.byte4 &&& 0x1F)
/-- `day_of_week(rec)` (R178). -/
def dayOfWeekOf (r : ClockRecord) : Nat := (r.byte5 &&& 0x07).toNat
/-- `year(rec)` (R179). -/
def yearOf (r : ClockRecord) : Nat := bcdDec r.byte6
/-- `write_protect(rec)` (R180). -/
def writeProtectOf (r : ClockRecord) : Bool := r.byte7.getLsbD 7

/-- `TCS` of a `TRICKLE` byte (R43): the trickle-charger select. -/
def trickleSelectOf (b : Byte) : BitVec 4 := b.extractLsb' 4 4
/-- `DS` of a `TRICKLE` byte (R43): the diode select. -/
def trickleDiodeOf (b : Byte) : BitVec 2 := b.extractLsb' 2 2
/-- `RS` of a `TRICKLE` byte (R43): the resistor select. -/
def trickleResistorOf (b : Byte) : BitVec 2 := b.extractLsb' 0 2
/-- Whether a `TRICKLE` byte enables charging (R43): one pattern of `TCS` alone does. -/
def trickleEnabled (b : Byte) : Bool := trickleSelectOf b == 0b1010

/-- A BCD field in the domain `lo` to `hi`, over the bits of `old` that `keep` selects (R181). -/
def setField (old keep : Byte) (lo hi n : Nat) : Option Byte :=
  if lo ≤ n ∧ n ≤ hi then (bcdEnc n).map (fun b => (old &&& keep) ||| b) else none

/-- `set_seconds(old, s, ch)` (R181): no bit of `old` is kept. -/
def setSeconds (_old : Byte) (n : Nat) (ch : Bool) : Option Byte :=
  (setField 0 0 0 59 n).map (fun b => (if ch then 0x80 else 0) ||| b)
/-- `set_minutes(old, m)` (R181). -/
def setMinutes (old : Byte) (n : Nat) : Option Byte := setField old 0x80 0 59 n
/-- `set_hour(old, hour)` (R181), in either view. -/
def setHour (old : Byte) (h : Hour) : Option Byte :=
  match h with
  | .hour24 v => setField old 0x40 0 23 v
  | .hour12 v m => (setField old 0x40 1 12 v).map (fun b => b ||| 0x80 ||| (if m = .pm then 0x20 else 0))
/-- `set_day_of_month(old, d)` (R181). -/
def setDayOfMonth (old : Byte) (n : Nat) : Option Byte := setField old 0xC0 1 31 n
/-- `set_month(old, m)` (R181). -/
def setMonth (old : Byte) (n : Nat) : Option Byte := setField old 0xE0 1 12 n
/-- `set_day_of_week(old, w)` (R181): the field is the number itself. -/
def setDayOfWeek (old : Byte) (n : Nat) : Option Byte :=
  if 1 ≤ n ∧ n ≤ 7 then some ((old &&& 0xF8) ||| BitVec.ofNat 8 n) else none
/-- `set_year(old, y)` (R181): no bit of `old` is kept. -/
def setYear (_old : Byte) (n : Nat) : Option Byte := setField 0 0 0 99 n
/-- `set_write_protect(old, wp)` (R181). -/
def setWriteProtect (old : Byte) (wp : Bool) : Byte := (old &&& 0x7F) ||| (if wp then 0x80 else 0)

/-- The fields of a record. -/
structure ClockFields where
  seconds      : Nat
  clockHalt    : Bool
  minutes      : Nat
  hour         : Hour
  dayOfMonth   : Nat
  month        : Nat
  dayOfWeek    : Nat
  year         : Nat
  writeProtect : Bool
  deriving DecidableEq, Repr

/-- The fields of a record, decoded (R173 to R180). -/
def decodeFields (r : ClockRecord) : ClockFields where
  seconds      := secondsOf r
  clockHalt    := clockHaltOf r
  minutes      := minutesOf r
  hour         := hourOf r
  dayOfMonth   := dayOfMonthOf r
  month        := monthOf r
  dayOfWeek    := dayOfWeekOf r
  year         := yearOf r
  writeProtect := writeProtectOf r

/-- A fresh record starts from 0 in every byte (R182). -/
def freshRecord : ClockRecord := ⟨0, 0, 0, 0, 0, 0, 0, 0⟩

/-- Set every field over an observed record (R181); each field's range is checked alone (R183). -/
def encodeFields (old : ClockRecord) (f : ClockFields) : Option ClockRecord :=
  match setSeconds old.byte0 f.seconds f.clockHalt, setMinutes old.byte1 f.minutes, setHour old.byte2 f.hour,
        setDayOfMonth old.byte3 f.dayOfMonth, setMonth old.byte4 f.month, setDayOfWeek old.byte5 f.dayOfWeek,
        setYear old.byte6 f.year with
  | some b0, some b1, some b2, some b3, some b4, some b5, some b6 =>
    some ⟨b0, b1, b2, b3, b4, b5, b6, setWriteProtect old.byte7 f.writeProtect⟩
  | _, _, _, _, _, _, _ => none

end Sys2Proof.Machine
end

