-- ==== Sys2Proof/Safety.lean ====
section
/-! DEFINITION. What counts as a good state and a good run, in the terms the claims use: the end of a run
(60_exceptions.md R227), the canonical form of every memory, and conformity of the lines and the peripheral with the operation
in hand (40_primitives.md R100 to R109, 60_exceptions.md R206, R213 to R216). -/

namespace Sys2Proof.Machine

open Sys2Proof

/-- A safe state: no model fault is recorded (10_state.md R33, 93_implementation_defined.md U23). -/
def State.Safe (s : State) : Prop := s.contention = false ∧ s.aborted = false ∧ s.noValueRead = false

/-- A run of the host's program has ended (R227). A request that the host showed for a step and withdrew unanswered
is no request of the program, so the run ends without an answer to it: DESIGN CHOICE, log 37. -/
def State.runEnded (s : State) : Bool :=
  s.script.isEmpty && !s.port.valid && s.rspValid && s.phase == .idle && !s.initPending

/-- A host that will not reset the engine (R225, R250). -/
def State.noResetToCome (s : State) : Prop := s.rst = false ∧ ∀ m ∈ s.script, ∀ cfg, m ≠ HostMove.reset cfg

/-- Every index of `m` is below `n`. -/
def Cells.below {α : Type} (m : Cells α) (n : Nat) : Prop := ∀ kv ∈ m, kv.1 < n

/-- Every memory of the state is in canonical form and holds only indexes that exist: 8 bits of `rx`, 31 bytes of `buf` and
`rsp_rbuf` (R26, R27), the 9 + 31 registers of the peripheral (R61, R62), 8 bytes of its burst registers. The last line says
that a single byte on its way in is addressed to a register that exists. -/
def State.MemoriesCanonical (s : State) : Prop :=
  (Cells.wf s.rx = true ∧ Cells.below s.rx 8) ∧
  (Memory.wf s.buf = true ∧ Cells.below s.buf 31) ∧
  (Memory.wf s.rspRbuf = true ∧ Cells.below s.rspRbuf 31) ∧
  (Memory.wf s.periph.store = true ∧ ∀ kv ∈ s.periph.store, cellExists kv.1 = true) ∧
  (Memory.wf s.periph.snapshot = true ∧ Cells.below s.periph.snapshot 8) ∧
  (Memory.wf s.periph.staged = true ∧ Cells.below s.periph.staged 8) ∧
  (s.periph.mode = .wdata → s.periph.burst = false → cellExists (cellOf s.periph.rc s.periph.ptr) = true)

/-- The four latches as one value. -/
structure Levels where
  ce   : Bool
  clk  : Bool
  dout : Bool
  dir  : Dir
  deriving DecidableEq, Repr

/-- The latches of a state. -/
def State.levels (s : State) : Levels := ⟨s.ce, s.clk, s.dout, s.dir⟩

/-- The latches after an event (R24). -/
def Levels.after (lv : Levels) (e : Event) : Levels :=
  match e with
  | .ce b => { lv with ce := b }
  | .clk b => { lv with clk := b }
  | .dout b => { lv with dout := b }
  | .dir d => { lv with dir := d }
  | .sample _ => lv
  | .wait _ => lv

/-- The latches after a list of events, oldest first. -/
def Levels.afterAll (lv : Levels) (es : List Event) : Levels := es.foldl Levels.after lv

/-- The operations that read (R81). -/
def HostOp.isRead (op : HostOp) : Bool :=
  match op with
  | .read => true
  | .write => false
  | .burstReadClock => true
  | .burstWriteClock => false
  | .burstReadRam => true
  | .burstWriteRam => false

/-- The levels of the data latch at the rising edges of a list of events, from given latches (95_test_vectors.md "Levels"). -/
def risingLevels (lv : Levels) (es : List Event) : List Bool :=
  match es with
  | [] => []
  | e :: rest =>
    (if e = .clk true ∧ lv.clk = false then [lv.dout] else []) ++ risingLevels (lv.after e) rest

/-- How many rising edges of SCLK a list of events has (R8), from given latches. -/
def risingCount (lv : Levels) (es : List Event) : Nat := (risingLevels lv es).length

/-- How many falling edges of SCLK a list of events has (R8), from given latches. -/
def fallingCount (lv : Levels) (es : List Event) : Nat :=
  match es with
  | [] => 0
  | e :: rest => (if e = .clk false ∧ lv.clk = true then 1 else 0) + fallingCount (lv.after e) rest

/-- The `DIR` events of a list of events. -/
def dirEvents (es : List Event) : List Dir :=
  match es with
  | [] => []
  | .dir d :: rest => d :: dirEvents rest
  | .ce _ :: rest => dirEvents rest
  | .clk _ :: rest => dirEvents rest
  | .dout _ :: rest => dirEvents rest
  | .sample _ :: rest => dirEvents rest
  | .wait _ :: rest => dirEvents rest

/-- Emit a list of events, oldest first, as the sequencer does one by one (R109). -/
def emitAll (es : List Event) (s : State) : State := es.foldl (fun t e => emit e t) s

/-- The peripheral is at rest: it waits for CE to rise and does not drive (R214, R221). -/
def Periph.atRest (p : Periph) : Prop := p.drive = false ∧ (p.kind ≠ .absent → p.mode = .off)

/-- What the engine's registers and latches are when the first `s.pos` entries of the trace `t` have been performed: the
latches are those the events leave, from a low CE and a low clock; the phase is the last entry's; every bit sampled and every
byte received holds a value. -/
def State.agreesWith (s : State) (t : List Entry) : Prop :=
  s.pos ≤ t.length ∧
  (∃ dout dir, s.levels = (Levels.mk false false dout dir).afterAll (eventsOf (t.take s.pos))) ∧
  s.phase = ((t.take s.pos).getLast?.map (fun e => e.phase)).getD .active ∧
  (∀ k : Fin 8, Event.sample k ∈ eventsOf (t.take s.pos) → (Cells.read s.rx k.val).isSome = true) ∧
  (∀ e ∈ t.take s.pos, ∀ k, e.dest = .buf k → (Cells.read s.buf k.val).isSome = true)

/-- How far the peripheral is in its transaction when the first `pos` events of a trace of `len` events have been performed
(R213 to R216): at rest before CE rises and after it falls; then taking in the command byte `cmd`, one bit a rising edge; then,
once it has taken the command, sending in a read and receiving in a write. -/
def Periph.agreesWith (p : Periph) (cmd : Byte) (isRead : Bool) (dir : Dir) (pos len : Nat) : Prop :=
  (p.kind = .absent → p.drive = false) ∧
  (p.kind ≠ .absent →
    if pos < 2 ∨ len ≤ pos + 1 then p.atRest
    else if pos < 48 then
      p.mode = .cmd ∧ p.drive = false ∧ p.nbits = pos / 6 ∧ (∀ i, i < pos / 6 → p.shift.getLsbD i = cmd.getLsbD i)
    else
      (pos = 48 ∧ p.mode = .cmd ∧ p.drive = false ∧ p.nbits = 8 ∧ p.shift = cmd) ∨
      (isRead = true ∧ (p.mode = .rdata ∨ p.mode = .ignore) ∧ (p.drive = true → dir = .in)) ∨
      (isRead = false ∧ (p.mode = .wdata ∨ p.mode = .ignore) ∧ p.drive = false))

/-- A state the machine can be in when it has kept to the spec. The engine: no register without value has been read; between
operations CE and the clock are low; during an operation the registers it reads hold values, its command byte names a register
or a burst and carries the operation's direction, and the latches, the phase and the received bits are those of the events
performed so far. The peripheral, as long as no abort is recorded (R207): no contention; at rest between operations; in an
operation as far as the events performed. -/
def State.Conforming (s : State) : Prop :=
  s.noValueRead = false ∧ s.params.regMap.wf = true ∧
  (s.phase = .idle → s.ce = false ∧ s.clk = false) ∧
  (s.phase ≠ .idle →
    ∃ op cmd, s.op = some op ∧ s.cmd = some cmd ∧ s.holdsOperands = true ∧
      (∃ i, decodeCommand s.params.regMap cmd = .ok i) ∧ cmd.getLsbD 0 = op.isRead ∧ s.agreesWith s.operationTrace) ∧
  (s.aborted = false →
    s.contention = false ∧
    (s.phase = .idle → s.periph.atRest) ∧
    (s.phase ≠ .idle →
      s.periph.agreesWith s.cmdInHand s.opInHand.isRead s.dir s.pos s.operationTrace.length))

/-- The eighteen single-register commands of the clock space (R34): the instruction, its register and whether it reads. -/
def clockCommands : List (Instr × Nat × Bool) :=
  [(.cmdWriteSeconds, 0, false), (.cmdReadSeconds, 0, true), (.cmdWriteMinutes, 1, false), (.cmdReadMinutes, 1, true),
   (.cmdWriteHours, 2, false), (.cmdReadHours, 2, true), (.cmdWriteDate, 3, false), (.cmdReadDate, 3, true),
   (.cmdWriteMonth, 4, false), (.cmdReadMonth, 4, true), (.cmdWriteWeekday, 5, false), (.cmdReadWeekday, 5, true),
   (.cmdWriteYear, 6, false), (.cmdReadYear, 6, true), (.cmdWriteControl, 7, false), (.cmdReadControl, 7, true),
   (.cmdWriteTrickle, 8, false), (.cmdReadTrickle, 8, true)]

/-- The commands of one RAM byte and of the bursts: the instruction, the index in its subspace, the subspace and whether it
reads (R83, R86). -/
def otherCommands (n : BitVec 5) : List (Instr × Nat × Bool × Bool) :=
  [(.cmdWriteRam n, n.toNat, true, false), (.cmdReadRam n, n.toNat, true, true),
   (.cmdWriteClockBurst, 31, false, false), (.cmdReadClockBurst, 31, false, true),
   (.cmdWriteRamBurst, 31, true, false), (.cmdReadRamBurst, 31, true, true)]

/-- The bits of a byte in the order they cross the line, least significant first (R64). -/
def byteLevels (v : Byte) : List Bool := (List.range 8).map (fun i => v.getLsbD i)

/-- The bit indexes of the `SAMPLE` events of a list of events, in order. -/
def samplesOf (es : List Event) : List (Fin 8) :=
  match es with
  | [] => []
  | .sample k :: rest => k :: samplesOf rest
  | .ce _ :: rest => samplesOf rest
  | .clk _ :: rest => samplesOf rest
  | .dout _ :: rest => samplesOf rest
  | .dir _ :: rest => samplesOf rest
  | .wait _ :: rest => samplesOf rest

/-- Where the received bytes of a trace go, one for each last sample of a byte, in order. -/
def receivedAt (t : List Entry) : List Dest :=
  (t.filter (fun e => decide (e.event = .sample 7))).map (fun e => e.dest)

/-- Every event of a list but those that move CE. -/
def noCe (es : List Event) : Prop := ∀ b, Event.ce b ∉ es

/-- No wait of the delay unit is running (R29). -/
def State.noWait (s : State) : Prop := ∀ n, s.waitCtr ≠ some (n + 1)

end Sys2Proof.Machine
end

