-- ==== Sys2Proof/Certificates/Slice0/Obligations.lean ====
section
/-! DEFINITION. The statements for the provers, each from the numbered rules of spec/. -/

open Sys2Proof Sys2Proof.Machine

/-! ### Encoding -/

/-- Decode and encode agree, for every instruction at every value its encoding admits, under every `REGMAP` that meets `RegMap.wf`:
what R34 asks of a replacement, with the two things read into it, numbers in the registers' order and no two alike (log 32) (R34,
R80, R83, R89, R90). -/
def Obligations.DecodeOfEncodeIsTheInstruction : Prop :=
  ∀ (m : RegMap) (i : Instr), m.wf = true → i.wellFormed = true → decodeWith m (encodeWith m i) = .ok i

/-- The other direction, under every map: bytes that decode are the encoding of what they decode to, which is well formed (R80,
R88, R89). -/
def Obligations.DecodedBytesAreTheEncoding : Prop :=
  ∀ (m : RegMap) (bytes : List Byte) (i : Instr), decodeWith m bytes = .ok i →
    encodeWith m i = bytes ∧ i.wellFormed = true

/-- Words written out from the encodings of R80, R83 and R89 decode to the instructions they stand for: five request words, one
request whose operands' bits are left out, five command bytes, and one byte that is no command. -/
def Obligations.WordsOfTheSpecDecode : Prop :=
  decodeTableWord 24 0x09421 = some (.write 0x84 0x12) ∧
  decodeTableWord 24 0x00420 = some (.read 0x84 0x00) ∧
  decodeTableWord 24 0x52E51 = some (.write 0xCA 0xA5) ∧
  decodeTableWord 24 0x00002 = some (.burstReadClock 0 0) ∧
  decodeTableWord 24 0x00006 = some (.reservedOp6 0 0) ∧
  decodeTableWord 8 0x01 = some (.write 0 0) ∧
  decodeTableWord 8 0x8E = some .cmdWriteControl ∧
  decodeTableWord 8 0x85 = some .cmdReadHours ∧
  decodeTableWord 8 0xC5 = some (.cmdReadRam 2) ∧
  decodeTableWord 8 0xBF = some .cmdReadClockBurst ∧
  decodeTableWord 8 0xFE = some .cmdWriteRamBurst ∧
  decodeTableWord 8 0x93 = none

/-- R87, R88: under the default map, of the 256 command bytes the decoder takes those whose bit 7 is 1 and that name a register
or a burst, and it takes each as the write or read form of that register (R83). Under every map the bytes it takes are the
address operands that are accepted. -/
def Obligations.CommandBytesAreClassified : Prop :=
  ∀ c : Byte,
    ((∃ i, decodeCommand Config.regMap c = .ok i) ↔
      (c.getLsbD 7 = true ∧ (commandSpace c = true ∨ (commandIndex c).toNat ≤ 8 ∨ commandIndex c = 31))) ∧
    (∀ i, decodeCommand Config.regMap c = .ok i →
      encode i = [commandByte (BitVec.ofBool (commandSpace c)) (commandIndex c) (BitVec.ofBool (commandIsRead c))]) ∧
    (∀ m : RegMap, validAddr m c = true ↔ ∃ i, decodeCommand m c = .ok i)

/-- Where the step fetches a placed instruction, it runs exactly the one the decoder reads (R25, R215). -/
def Obligations.StepRunsThePlacedWord : Prop :=
  ∀ (s : State) (nbits w : Nat) (i : Instr), decodeTableWord nbits w = some i →
    step (s.withFetchWord nbits w) =
      mapNext (exec i (s.withFetchWord nbits w)) (hostTurn (!tableIsCommand nbits w))

/-- A step runs the decoded instruction: a request on the port of a ready engine, whatever the peripheral is at (R25), with the
host's turn of an answered request; where there is none, the peripheral's command (R215, log 1) with the host's turn after it. R163,
R241: with neither, a ready engine waits: nothing changes but by the host's turn. -/
def Obligations.StepRunsTheDecodedInstruction : Prop :=
  ∀ s : State, s.rst = false →
    (∀ i, s.reqReady = false ∨ s.port.valid = false → s.periph.commandReady = true →
      decodeCommand s.commandMap s.periph.shift = .ok i →
      step s = mapNext (exec i s) (hostTurn false)) ∧
    (s.reqReady = true → s.port.valid = true →
      step s = mapNext (exec s.port.instr s) (hostTurn true)) ∧
    (s.reqReady = true → s.port.valid = false → s.periph.commandReady = false → step s = .next (hostTurn false s))

/-! ### The requests -/

/-- R130, R25, R46, R84: READ of a valid address is accepted, and everything but the registers named here stays. -/
def Obligations.ReadIsAccepted : Prop :=
  ∀ (addr wdata : Byte) (s : State), s.reqReady = true → validAddr s.params.regMap addr = true →
    exec (.read addr wdata) s = .next
      { s with
        phase := .active, pos := 0, op := some .read, cmd := some (addr ||| 0x01), tx := some wdata, buf := [],
        rx := [], bit := none, idx := none, waitCtr := none, rspValid := false, rspRdata := none, rspRbuf := [] }

/-- R131, R25, R46, R85: WRITE of a valid address is accepted, and everything but the registers named here stays. -/
def Obligations.WriteIsAccepted : Prop :=
  ∀ (addr v : Byte) (s : State), s.reqReady = true → validAddr s.params.regMap addr = true →
    exec (.write addr v) s = .next
      { s with
        phase := .active, pos := 0, op := some .write, cmd := some (addr &&& 0xFE), tx := some v, buf := [],
        rx := [], bit := none, idx := none, waitCtr := none, rspValid := false, rspRdata := none, rspRbuf := [] }

/-- R140 to R143, R86, R89, R204: the burst operations (those of RAM where the build has them) are accepted whatever their
`addr`, with the command bytes of the build's map; a burst write's payload is in `buf`, byte for byte. Everything but the
registers named here stays. -/
def Obligations.BurstsAreAccepted : Prop :=
  ∀ (addr wdata : Byte) (payload : List Byte) (s : State), s.reqReady = true →
    let m := s.params.regMap
    let accepted := fun (op : HostOp) (cmd : Byte) (buf : Memory) =>
      { s with
        phase := .active, pos := 0, op := some op, cmd := some cmd, tx := some wdata, buf := buf,
        rx := [], bit := none, idx := none, waitCtr := none, rspValid := false, rspRdata := none, rspRbuf := [] }
    exec (.burstReadClock addr wdata) s = .next (accepted .burstReadClock (m.clockBurst ||| 0x01) []) ∧
    (payload.length = 8 → ∃ buf, (∀ k, Cells.read buf k = payload[k]?) ∧
      exec (.burstWriteClock addr wdata payload) s =
        .next (accepted .burstWriteClock (m.clockBurst &&& 0xFE) buf)) ∧
    (s.params.hasRamBurst = true →
      exec (.burstReadRam addr wdata) s = .next (accepted .burstReadRam (m.ramBurst ||| 0x01) [])) ∧
    (s.params.hasRamBurst = true → payload.length = 31 → ∃ buf, (∀ k, Cells.read buf k = payload[k]?) ∧
      exec (.burstWriteRam addr wdata payload) s = .next (accepted .burstWriteRam (m.ramBurst &&& 0xFE) buf))

/-- R91, R202, R204: a reserved code, whatever its operands, is rejected with INVALID_OPERATION: the status and `rsp_valid`
are written, the response data hold no value, and nothing else changes; so no line event is emitted. -/
def Obligations.ReservedCodesAreRejected : Prop :=
  ∀ (addr wdata : Byte) (payload : List Byte) (s : State), s.reqReady = true →
    let rejected : Outcome := .next
      { s with rspStatus := some .invalidOperation, rspValid := true, rspRdata := none, rspRbuf := [] }
    exec (.reservedOp6 addr wdata) s = rejected ∧ exec (.reservedOp7 addr wdata) s = rejected ∧
    (s.params.hasRamBurst = false →
      exec (.burstReadRam addr wdata) s = rejected ∧ exec (.burstWriteRam addr wdata payload) s = rejected)

/-- R87, R201: READ and WRITE check the address before any line event. An operand that without bit 0 is no write form of the
build's map (with the default map, one outside the ranges R87 gives) is rejected with INVALID_ADDRESS, which writes the status
and `rsp_valid`, leaves the response data without value and changes nothing else. -/
def Obligations.InvalidAddressIsRejected : Prop :=
  ∀ (addr wdata : Byte) (s : State), s.reqReady = true →
    let rejected : Outcome := .next
      { s with rspStatus := some .invalidAddress, rspValid := true, rspRdata := none, rspRbuf := [] }
    (addr &&& 0xFE ∉ s.params.regMap.writeForms →
      exec (.read addr wdata) s = rejected ∧ exec (.write addr wdata) s = rejected) ∧
    (s.params.regMap = Config.regMap →
      ¬ ((addr &&& 0xFE).getLsbD 7 = true ∧
          ((addr &&& 0xFE).getLsbD 6 = true ∨ (commandIndex (addr &&& 0xFE)).toNat ≤ 8 ∨
            commandIndex (addr &&& 0xFE) = 31)) →
      exec (.read addr wdata) s = rejected ∧ exec (.write addr wdata) s = rejected)

/-- R68, R84, R85: bit 0 of the address operand makes no difference to READ or to WRITE. -/
def Obligations.BitZeroOfTheAddressIsForced : Prop :=
  ∀ (addr wdata : Byte) (s : State),
    exec (.read (addr ^^^ 0x01) wdata) s = exec (.read addr wdata) s ∧
    exec (.write (addr ^^^ 0x01) wdata) s = exec (.write addr wdata) s

/-- R84, R85: READ sends the address with bit 0 forced to 1 and WRITE with bit 0 forced to 0, bits [7:1] unchanged: that is the
command byte of the trace an accepted request expands to. -/
def Obligations.ReadFlagIsForced : Prop :=
  ∀ (addr v : Byte) (s : State), s.reqReady = true → validAddr s.params.regMap addr = true →
    (∃ t cmd, exec (.read addr v) s = .next t ∧ t.operationTrace = readTrace cmd ∧ cmd.getLsbD 0 = true ∧
      ∀ i, 1 ≤ i → cmd.getLsbD i = addr.getLsbD i) ∧
    (∃ t cmd, exec (.write addr v) s = .next t ∧ t.operationTrace = writeTrace cmd v ∧ cmd.getLsbD 0 = false ∧
      ∀ i, 1 ≤ i → cmd.getLsbD i = addr.getLsbD i)

/-- R86: the burst operations take no address; whatever stands in the word's address field, each sends its fixed command
byte of the default map, followed, in a write, by the payload's bytes in ascending order (R65). -/
def Obligations.BurstsSendTheirFixedCommand : Prop :=
  ∀ (addr w : Byte) (s : State), s.reqReady = true → s.params.hasRamBurst = true →
    s.params.regMap = Config.regMap →
    (∃ t, exec (.burstReadClock addr w) s = .next t ∧ t.operationTrace = burstReadTrace 0xBF 8) ∧
    (∀ payload : List Byte, payload.length = 8 →
      ∃ t bytes, exec (.burstWriteClock addr w payload) s = .next t ∧
        t.operationTrace = burstWriteTrace 0xBE bytes ∧ bytes.map Prod.snd = payload ∧ bytes.map Prod.fst = burstIndices 8) ∧
    (∃ t, exec (.burstReadRam addr w) s = .next t ∧ t.operationTrace = burstReadTrace 0xFF 31) ∧
    (∀ payload : List Byte, payload.length = 31 →
      ∃ t bytes, exec (.burstWriteRam addr w payload) s = .next t ∧
        t.operationTrace = burstWriteTrace 0xFE bytes ∧ bytes.map Prod.snd = payload ∧ bytes.map Prod.fst = burstIndices 31)

/-- R25, R111, R225: a request presented while `req_ready` is 0 waits with none of its effect. Between steps the host may do what
R225 lets it: a request it holds stays until it is answered, and where it holds none its next move is made, be it to present a
request, to present one for a step, to hold `req_valid` low, or to reset. -/
def Obligations.RequestsWaitWhileBusy : Prop :=
  (∀ (s : State) (addr wdata : Byte) (payload : List Byte), s.reqReady = false →
    ∀ i ∈ [Instr.read addr wdata, .write addr wdata, .burstReadClock addr wdata, .burstWriteClock addr wdata payload,
        .burstReadRam addr wdata, .burstWriteRam addr wdata payload, .reservedOp6 addr wdata, .reservedOp7 addr wdata],
      exec i s = .next s) ∧
  (∀ s : State, s.port.valid = true → s.port.held = true → hostTurn false s = { s with rst := false }) ∧
  (∀ (s : State) (taken : Bool) (rest : List HostMove) (r : Request) (cfg : Bool),
    s.port.valid = false ∨ s.port.held = false ∨ taken = true →
    (s.script = .request r :: rest →
      hostTurn taken s = { s with port := ⟨true, true, r⟩, rst := false, script := rest }) ∧
    (s.script = .present r :: rest →
      hostTurn taken s = { s with port := ⟨true, false, r⟩, rst := false, script := rest }) ∧
    (s.script = .hold :: rest →
      hostTurn taken s = { s with port := { s.port with valid := false }, rst := false, script := rest }) ∧
    (s.script = .reset cfg :: rest →
      hostTurn taken s =
        { s with port := { s.port with valid := false }, rst := true, cfgInitClear := cfg, script := rest }) ∧
    (s.script = [] → hostTurn taken s = { s with port := { s.port with valid := false }, rst := false }))

/-- R25, D25: the request signals make no difference to a step with `req_ready` = 0, but for what the host itself does with
them. -/
def Obligations.RequestSignalsDoNotMatterWhileBusy : Prop :=
  ∀ (s a : State) (p : Port), s.reqReady = false → step s = .next a →
    ∃ b, step { s with port := p } = .next b ∧
      { b with port := a.port, rst := a.rst, cfgInitClear := a.cfgInitClear, script := a.script } = a

/-- R21, R109: the trace an accepted request expands to depends on the request and the parameters alone, not on what earlier
operations left behind. -/
def Obligations.TraceDependsOnTheRequestAlone : Prop :=
  ∀ (i : Instr) (s₁ s₂ t₁ t₂ : State), s₁.reqReady = true → s₂.reqReady = true → s₁.params = s₂.params →
    exec i s₁ = .next t₁ → exec i s₂ = .next t₂ →
    t₁.phase = t₂.phase ∧ (t₁.phase ≠ .idle → t₁.operationTrace = t₂.operationTrace)

/-! ### The command bytes -/

/-- R215, R216, R222, R34: a single-register command of the clock space, and a RAM command, set the peripheral's direction,
subspace and pointer, and change nothing else. -/
def Obligations.RegisterCommandsSelectTheirRegister : Prop :=
  ∀ (s : State) (n : BitVec 5), s.periph.kind ≠ .absent →
    (∀ c ∈ clockCommands,
      exec c.1 s = .next
        { s with
          periph := { s.periph with
            nbits := 0, rc := false, burst := false, ptr := c.2.1, mode := if c.2.2 then .rdata else .wdata } }) ∧
    (n ≠ 31 →
      exec (.cmdWriteRam n) s = .next
        { s with periph := { s.periph with nbits := 0, rc := true, burst := false, ptr := n.toNat, mode := .wdata } } ∧
      exec (.cmdReadRam n) s = .next
        { s with periph := { s.periph with nbits := 0, rc := true, burst := false, ptr := n.toNat, mode := .rdata } })

/-- R215, R216, R222, R86: a burst command points at the first register of its subspace. R69: the chip's clock-burst read
freezes the eight registers as they read at that instant, and no other command touches the snapshot. Nothing else changes. -/
def Obligations.BurstCommandsStartAtTheFirstRegister : Prop :=
  ∀ s : State, s.periph.kind ≠ .absent →
    exec .cmdWriteClockBurst s = .next
      { s with periph := { s.periph with nbits := 0, rc := false, burst := true, ptr := 0, mode := .wdata } } ∧
    exec .cmdWriteRamBurst s = .next
      { s with periph := { s.periph with nbits := 0, rc := true, burst := true, ptr := 0, mode := .wdata } } ∧
    exec .cmdReadRamBurst s = .next
      { s with periph := { s.periph with nbits := 0, rc := true, burst := true, ptr := 0, mode := .rdata } } ∧
    ∃ frozen,
      exec .cmdReadClockBurst s = .next
        { s with periph := { s.periph with
            nbits := 0, rc := false, burst := true, ptr := 0, mode := .rdata, snapshot := frozen } } ∧
      (s.periph.kind = .chip → ∀ k, k < 8 → Cells.read frozen k = some (s.periph.readByte k)) ∧
      (s.periph.kind = .responder → frozen = s.periph.snapshot)

/-- R130: where nothing is wired to the lines, no command is taken: nothing changes. -/
def Obligations.AbsentPeripheralTakesNoCommand : Prop :=
  ∀ (s : State) (n : BitVec 5), s.periph.kind = .absent →
    (∀ c ∈ clockCommands, exec c.1 s = .next s) ∧ (∀ c ∈ otherCommands n, exec c.1 s = .next s)

/-! ### Events, latches and the sequencer -/

/-- R24: each latch changes only by its event. A step without reset either emits nothing and leaves the four latches, or emits
one event, which changes its own latch and no other. -/
def Obligations.LatchesChangeOnlyByTheirEvents : Prop :=
  ∀ s t : State, s.rst = false → step s = .next t →
    (t.trace = s.trace ∧ t.levels = s.levels) ∨ (∃ e, t.trace = e :: s.trace ∧ t.levels = s.levels.after e)

/-- R109, R108: while no wait is running, a step of the sequencer performs the event at the sequencer position and nothing
else. The event is appended to the trace, the phase is the one the event runs in, the position advances by 1; its own latch
alone is written; `bit` and `idx` are what the entry says (log 31); `wait_ctr` is written by WAIT alone (R29) and `rx` by SAMPLE
alone, one bit (R106); the byte received goes where the entry says, to `rsp_rdata` (R130) or to `buf` (R140, R142), and to
neither otherwise; the peripheral and CONTENTION are what the event makes of them, and without an abort only a CE or CLK event
changes the peripheral; the read of a register without value is recorded (R46, U23), at every event of an operation one of whose
operand registers holds none, which is the model's reading (log 6). Every other field of the spec stays, the model's own counter
`draws` goes on by one (log 10), and the host's turn follows. -/
def Obligations.SequencerPerformsTheNextEvent : Prop :=
  ∀ (s : State) (e : Entry), s.turn = .sequencer → s.noWait → s.operationTrace[s.pos]? = some e →
    ∃ t, step s = .next (hostTurn false t) ∧
      t.trace = e.event :: s.trace ∧ t.pos = s.pos + 1 ∧ t.phase = e.phase ∧ t.levels = s.levels.after e.event ∧
      t.bit = (if e.bit = none then s.bit else e.bit) ∧ t.idx = (if e.idx = none then s.idx else e.idx) ∧
      (∀ d, e.event = .wait d → t.waitCtr = some (s.params.delay d * s.params.ticksPerUs)) ∧
      ((∀ d, e.event ≠ .wait d) → t.waitCtr = s.waitCtr) ∧
      (∀ k, e.event = .sample k →
        Cells.read t.rx k.val = some s.line ∧ ∀ j, j ≠ k.val → Cells.read t.rx j = Cells.read s.rx j) ∧
      ((∀ k, e.event ≠ .sample k) → t.rx = s.rx) ∧
      (e.dest = .rdata → ∀ v, assemble t.rx = some v → t.rspRdata = some v) ∧
      (e.dest ≠ .rdata → t.rspRdata = s.rspRdata) ∧
      (∀ k, e.dest = .buf k →
        (∀ v, assemble t.rx = some v → Cells.read t.buf k.val = some v) ∧
        ∀ j, j ≠ k.val → Cells.read t.buf j = Cells.read s.buf j) ∧
      ((∀ k, e.dest ≠ .buf k) → t.buf = s.buf) ∧
      t.periph = (emit e.event s).periph ∧ t.contention = (emit e.event s).contention ∧
      (s.aborted = false → (∀ b, e.event ≠ .ce b) → (∀ b, e.event ≠ .clk b) → t.periph = s.periph) ∧
      t.noValueRead =
        (s.noValueRead || !s.holdsOperands || (decide (e.dest ≠ .nowhere) && (assemble t.rx).isNone)) ∧
      t.draws = s.draws + 1 ∧
      t.op = s.op ∧ t.cmd = s.cmd ∧ t.tx = s.tx ∧ t.rspValid = s.rspValid ∧ t.rspStatus = s.rspStatus ∧
      t.rspRbuf = s.rspRbuf ∧ t.aborted = s.aborted ∧ t.initPending = s.initPending ∧ t.initSecond = s.initSecond ∧
      t.params = s.params ∧ t.port = s.port ∧ t.rst = s.rst ∧ t.cfgInitClear = s.cfgInitClear ∧ t.script = s.script

/-- R203: the engine never reads WP, and what it performs never depends on the peripheral: whatever is wired to the lines, the
same event is performed, and the latches, the phase, the position, `bit`, `idx`, the status and `rsp_valid` come out the same; in
an operation that writes, so do `buf`, from which its next events come, and the response data. -/
def Obligations.SequencerDoesNotReadThePeripheral : Prop :=
  ∀ (s : State) (p : Periph),
    let a := sequencerStep s
    let b := sequencerStep { s with periph := p }
    b.trace = a.trace ∧ b.levels = a.levels ∧ b.phase = a.phase ∧ b.pos = a.pos ∧ b.waitCtr = a.waitCtr ∧
    b.bit = a.bit ∧ b.idx = a.idx ∧ b.op = a.op ∧ b.cmd = a.cmd ∧ b.tx = a.tx ∧
    b.rspValid = a.rspValid ∧ b.rspStatus = a.rspStatus ∧ b.noValueRead = a.noValueRead ∧
    b.initPending = a.initPending ∧ b.initSecond = a.initSecond ∧
    (s.opInHand.isRead = false → b.buf = a.buf ∧ b.rspRdata = a.rspRdata ∧ b.rspRbuf = a.rspRbuf)

/-- R29, R110: a WAIT loads `wait_ctr` with its ticks; while it is not 0 a step counts it down by one, and nothing else of the
engine or of the peripheral changes. -/
def Obligations.WaitsHoldTheSequencer : Prop :=
  (∀ (s : State) (d : Delay), (emit (.wait d) s).waitCtr = some (s.params.delay d * s.params.ticksPerUs)) ∧
  (∀ (s : State) (n : Nat), s.turn = .sequencer → s.waitCtr = some (n + 1) →
    step s = .next (hostTurn false { s with waitCtr := some n }))

/-- R108, R130, R131, R140 to R143: when the trace is over and its last wait has elapsed, the operation completes: the phase is
IDLE, `rsp_valid` is 1 and the status OK; a burst read's bytes are in `rsp_rbuf`, and the other operations leave it. -/
def Obligations.CompletionGivesTheResponse : Prop :=
  ∀ (s : State) (op : HostOp), s.turn = .sequencer → s.noWait → s.operationTrace.length ≤ s.pos →
    s.initPending = false → s.op = some op → s.holdsOperands = true →
    (op = .burstReadClock → ∀ k : Fin 31, k.val < 8 → (Cells.read s.buf k.val).isSome = true) →
    (op = .burstReadRam → ∀ k : Fin 31, (Cells.read s.buf k.val).isSome = true) →
    ∃ rbuf,
      step s = .next (hostTurn false
        { s with phase := .idle, rspValid := true, rspStatus := some .ok, rspRbuf := rbuf }) ∧
      (op = .burstReadClock → ∀ k, Cells.read rbuf k = if k < 8 then Cells.read s.buf k else none) ∧
      (op = .burstReadRam → ∀ k, Cells.read rbuf k = if k < 31 then Cells.read s.buf k else none) ∧
      (op ≠ .burstReadClock → op ≠ .burstReadRam → rbuf = s.rspRbuf)

/-- R255, R108, R201: `rsp_valid` rises only in a step that leaves the phase IDLE: there is no partial result. -/
def Obligations.ResponseComesOnlyAtTheEnd : Prop :=
  ∀ s t : State, step s = .next t → s.rspValid = false → t.rspValid = true → t.phase = .idle

/-- R100, R101, R243, R248, R249: every operation's trace begins with `start` and the setup of the command's bit 0, so that
`WAIT(T_CE_SU)` and `WAIT(T_DSU)` stand between `CE(1)` and the first `CLK(1)`; it ends with `stop`; and it has no CE event between. -/
def Obligations.EveryTraceIsOneFramedTransaction : Prop :=
  ∀ s : State,
    ∃ body, eventsOf s.operationTrace =
        [.dir .out, .ce true, .wait .ceSu, .dout (s.cmdInHand.getLsbD 0), .wait .dsu, .clk true] ++ body ++
          [.ce false, .wait .ceRec] ∧
      noCe body

/-- R130, R131, R140 to R143: the six traces, for every command byte and all data. How many events, rising and falling edges of
SCLK and which `DIR` events. R64, R65: what stands on the data line at the rising edges is the command byte's bits and, in a
write, each data byte's, least significant first, in ascending order. R108: the phases. R104, R106, R140, R142: the samples are bits
0 to 7 of each byte received, the byte goes in the step of its last sample to `rsp_rdata` or, the k-th of a burst, to `buf[k]`, and
no other step delivers one. R27: `idx` at the events of a burst's bytes (log 31). -/
def Obligations.TraceShapes : Prop :=
  ∀ (cmd tx : Byte) (clock ram : List (Fin 31 × Byte)) (dout : Bool) (dir : Dir),
    clock.length = 8 → ram.length = 31 →
    let lv := Levels.mk false false dout dir
    let shape := fun (t : List Entry) =>
      (t.length, risingCount lv (eventsOf t), fallingCount lv (eventsOf t), dirEvents (eventsOf t))
    let line := fun (t : List Entry) => risingLevels lv (eventsOf t)
    let sent := fun (bytes : List (Fin 31 × Byte)) => byteLevels cmd ++ bytes.flatMap (fun kv => byteLevels kv.2)
    let phases := fun (t : List Entry) => t.map (fun e => e.phase)
    let reads := fun (n : Nat) =>
      List.replicate 3 Phase.active ++ List.replicate 46 .addressing ++ [.lineReleased] ++ List.replicate n .reading ++
        List.replicate 2 .closing
    let writes := fun (n : Nat) =>
      List.replicate 3 Phase.active ++ List.replicate 48 .addressing ++ List.replicate n .writing ++ List.replicate 2 .closing
    let samples := fun (t : List Entry) => samplesOf (eventsOf t)
    let deliversElsewhere := fun (t : List Entry) => ∃ e ∈ t, e.event ≠ .sample 7 ∧ e.dest ≠ .nowhere
    let indexes := fun (t : List Entry) => t.filterMap (fun e => e.idx)
    (shape (readTrace cmd) = (91, 15, 15, [.out, .in]) ∧
      shape (writeTrace cmd tx) = (101, 16, 16, [.out]) ∧
      shape (burstReadTrace cmd 8) = (371, 71, 71, [.out, .in]) ∧
      shape (burstWriteTrace cmd clock) = (437, 72, 72, [.out]) ∧
      shape (burstReadTrace cmd 31) = (1291, 255, 255, [.out, .in]) ∧
      shape (burstWriteTrace cmd ram) = (1541, 256, 256, [.out])) ∧
    ((line (readTrace cmd)).take 8 = byteLevels cmd ∧
      line (writeTrace cmd tx) = byteLevels cmd ++ byteLevels tx ∧
      (line (burstReadTrace cmd 8)).take 8 = byteLevels cmd ∧
      line (burstWriteTrace cmd clock) = sent clock ∧
      (line (burstReadTrace cmd 31)).take 8 = byteLevels cmd ∧
      line (burstWriteTrace cmd ram) = sent ram) ∧
    (phases (readTrace cmd) = reads 39 ∧ phases (writeTrace cmd tx) = writes 48 ∧
      phases (burstReadTrace cmd 8) = reads 319 ∧ phases (burstWriteTrace cmd clock) = writes 384 ∧
      phases (burstReadTrace cmd 31) = reads 1239 ∧ phases (burstWriteTrace cmd ram) = writes 1488) ∧
    (samples (readTrace cmd) = bitIndices ∧ samples (writeTrace cmd tx) = [] ∧
      samples (burstReadTrace cmd 8) = (List.replicate 8 bitIndices).flatten ∧ samples (burstWriteTrace cmd clock) = [] ∧
      samples (burstReadTrace cmd 31) = (List.replicate 31 bitIndices).flatten ∧ samples (burstWriteTrace cmd ram) = []) ∧
    (receivedAt (readTrace cmd) = [.rdata] ∧
      receivedAt (burstReadTrace cmd 8) = (burstIndices 8).map Dest.buf ∧
      receivedAt (burstReadTrace cmd 31) = (burstIndices 31).map Dest.buf ∧
      ∀ t ∈ [readTrace cmd, writeTrace cmd tx, burstReadTrace cmd 8, burstWriteTrace cmd clock, burstReadTrace cmd 31,
        burstWriteTrace cmd ram], ¬ deliversElsewhere t) ∧
    (indexes (readTrace cmd) = [] ∧ indexes (writeTrace cmd tx) = [] ∧
      indexes (burstReadTrace cmd 8) = (burstIndices 8).flatMap (fun k => List.replicate (if k = 0 then 39 else 40) k) ∧
      indexes (burstWriteTrace cmd clock) = clock.flatMap (fun kv => List.replicate 48 kv.1) ∧
      indexes (burstReadTrace cmd 31) = (burstIndices 31).flatMap (fun k => List.replicate (if k = 0 then 39 else 40) k) ∧
      indexes (burstWriteTrace cmd ram) = ram.flatMap (fun kv => List.replicate 48 kv.1))

/-- R64, R102: `write_bits` puts the byte's bits on the data line least significant first, one at each rising edge; R103: with
release it leaves the clock high and the line released, and without it the clock low and the line driven. R244, R245: each bit is
its `DOUT`, one `WAIT(T_DSU)`, `CLK(1)` and `WAIT(T_DH)`, and, but for the hand-off, `CLK(0)` and `WAIT(T_CLR)` before the next bit.
Every event carries the index of its bit (R27, log 31). -/
def Obligations.WriteBitsSendsLeastSignificantFirst : Prop :=
  ∀ (phase : Phase) (idx : Option (Fin 31)) (v : Byte) (rel dout : Bool) (dir : Dir) (ce : Bool),
    let lv := Levels.mk ce false dout dir
    let t := writeBits phase idx v rel
    let es := eventsOf t
    risingLevels lv es = byteLevels v ∧
    lv.afterAll es = ⟨ce, rel, v.getLsbD 7, if rel then .in else dir⟩ ∧
    es.length = (if rel then 47 else 48) ∧
    (∀ i, i < 8 →
      (es.drop (6 * i)).take 4 = [.dout (v.getLsbD i), .wait .dsu, .clk true, .wait .dh] ∧
      (es.drop (6 * i + 4)).take 2 = if i = 7 ∧ rel = true then [.dir .in] else [.clk false, .wait .clr]) ∧
    (∀ j e, t[j]? = some e → e.dest = .nowhere ∧ e.idx = idx ∧ ∃ i, e.bit = some i ∧ i.val = j / 6)

/-- R103, R246: in every read trace the one release of the data line comes after the command's eighth rising edge and its hold,
and before the next clock event, which is the falling edge of the first `read_bits`. -/
def Obligations.HandOffComesBeforeTheClockFalls : Prop :=
  ∀ (cmd : Byte) (t : List Entry), t ∈ [readTrace cmd, burstReadTrace cmd 8, burstReadTrace cmd 31] →
    ∃ before after,
      eventsOf t = before ++ [.clk true, .wait .dh, .dir .in, .wait .rh, .clk false] ++ after ∧
      before.count (.clk true) = 7 ∧ Event.dir .in ∉ before ∧ Event.dir .in ∉ after ∧ Event.dir .out ∉ after

/-- R105: the first `read_bits` of a transaction, which finds the clock high, emits 7 rising clock events and 8 falling ones;
a later one, which finds it low, emits 8 and 8. Both leave the clock low and the other latches alone. R104, R244: each bit is
`WAIT(T_RH)`, `CLK(0)`, one `WAIT(T_RL)` and `SAMPLE`, after a `CLK(1)` where the clock is low. Every event carries the index of its
bit (R27, log 31), and the step of the last sample delivers the byte. -/
def Obligations.ReadBitsFromEitherClockLevel : Prop :=
  ∀ (clk ce dout : Bool) (dir : Dir) (idx : Option (Fin 31)) (dest : Dest),
    let t := readBits clk idx dest
    let es := eventsOf t
    let early := if clk then 1 else 0
    es.count (.clk true) = (if clk then 7 else 8) ∧ es.count (.clk false) = 8 ∧
    (Levels.mk ce clk dout dir).afterAll es = ⟨ce, false, dout, dir⟩ ∧
    es.length = 40 - early ∧
    (∀ i : Fin 8,
      (es.drop (5 * i.val + 1 - early)).take 4 = [.wait .rh, .clk false, .wait .rl, .sample i] ∧
      (i ≠ 0 ∨ clk = false → es[5 * i.val - early]? = some (.clk true))) ∧
    (∀ j e, t[j]? = some e →
      e.phase = .reading ∧ e.idx = idx ∧ (e.dest = if e.event = .sample 7 then dest else .nowhere) ∧
      ∃ i, e.bit = some i ∧ i.val = (j + early) / 5)

/-- R106: SAMPLE(k) puts the line's level in bit k of `rx` and leaves the other bits; `read_bits` writes all eight, so its
result does not depend on what `rx` held. -/
def Obligations.SampleWritesOneBit : Prop :=
  (∀ (s : State) (k : Fin 8),
    Cells.read (emit (.sample k) s).rx k.val = some s.line ∧
    ∀ j, j ≠ k.val → Cells.read (emit (.sample k) s).rx j = Cells.read s.rx j) ∧
  (∀ (s : State) (rx : Cells Bool) (clk : Bool) (idx : Option (Fin 31)) (dest : Dest),
    (assemble (emitAll (eventsOf (readBits clk idx dest)) s).rx).isSome = true ∧
    assemble (emitAll (eventsOf (readBits clk idx dest)) { s with rx := rx }).rx =
      assemble (emitAll (eventsOf (readBits clk idx dest)) s).rx)

/-! ### The data line and the model faults -/

/-- R205: where only the engine drives, the line is at `dout`; where only the peripheral drives, at the peripheral's bit.
R206: an event after which both drive records CONTENTION. -/
def Obligations.LineResolution : Prop :=
  (∀ s : State, s.dir = .out → s.periph.drive = false → s.line = s.dout) ∧
  (∀ s : State, s.dir = .in → s.periph.drive = true → s.line = s.periph.driveBit) ∧
  (∀ (s : State) (e : Event), (emit e s).dir = .out → (emit e s).periph.drive = true → (emit e s).contention = true)

/-- R206, R207, R33, U23: a recorded fault is never cleared; ABORTED_TRANSACTION is recorded by exactly the steps that take reset
while the phase is not IDLE. -/
def Obligations.FaultsAreSticky : Prop :=
  ∀ s t : State, step s = .next t →
    (s.contention = true → t.contention = true) ∧ (s.noValueRead = true → t.noValueRead = true) ∧
    t.aborted = (s.aborted || (s.rst && s.phase != .idle))

/-! ### Reset and the init policy -/

/-- R47, R240, R241: with reset asserted, a step gives every piece of engine state its reset value, samples `cfg_init_clear`
into the pending flag, puts the first init write next (log 29), and records no line event. R48: a reset at IDLE, with CE low,
leaves the peripheral as it was, and (R207) adds no abort to the record; that the record outlives the reset is the model's reading
(log 9). -/
def Obligations.ResetGivesTheResetValues : Prop :=
  ∀ s : State, s.rst = true →
    ∃ t, step s = .next t ∧
      t.phase = .idle ∧ t.ce = false ∧ t.clk = false ∧ t.dir = .in ∧ t.dout = false ∧
      t.rspValid = false ∧ t.rspStatus = none ∧ t.rspRdata = none ∧ t.rspRbuf = [] ∧
      t.cmd = none ∧ t.tx = none ∧ t.rx = [] ∧ t.bit = none ∧ t.idx = none ∧ t.buf = [] ∧ t.op = none ∧
      t.waitCtr = none ∧ t.initPending = s.cfgInitClear ∧ t.initSecond = false ∧ t.trace = s.trace ∧ t.params = s.params ∧
      (s.phase = .idle → s.ce = false → t.periph = s.periph ∧ t.aborted = s.aborted)

/-- R160, R162: while init writes are pending and no operation is in hand, a step begins the next one, CONTROL with 0x00 or
TRICKLE with 0x00 by the model's field `initSecond` (log 29), which reset makes false (ResetGivesTheResetValues). The end of the
first write keeps the writes pending and makes the second the next; the end of the second ends them. So CONTROL comes first and
TRICKLE second. The record of a read of a register without value at that end is the model's (log 6).
R43: 0x00 in TRICKLE disables charging, and in CONTROL it is WP = 0. -/
def Obligations.InitPolicyWritesControlThenTrickle : Prop :=
  (∀ s : State, s.rst = false → s.periph.commandReady = false → s.phase = .idle → s.initPending = true →
    let addr := if s.initSecond then s.params.regMap.trickle else s.params.regMap.control
    ∃ t, step s = .next t ∧ t.phase = .active ∧ t.pos = 0 ∧ t.op = some .write ∧
      t.cmd = some (addr &&& 0xFE) ∧ t.tx = some 0x00 ∧ t.operationTrace = writeTrace (addr &&& 0xFE) 0x00 ∧
      (s.params.regMap = Config.regMap → t.cmd = some (if s.initSecond then 0x90 else 0x8E)) ∧
      t.levels = s.levels ∧ t.trace = s.trace ∧ t.initPending = true ∧ t.initSecond = s.initSecond) ∧
  (∀ s : State, s.turn = .sequencer → s.noWait → s.operationTrace.length ≤ s.pos → s.initPending = true →
    step s = .next (hostTurn false
      { s with
        phase := .idle, initPending := !s.initSecond, initSecond := !s.initSecond,
        noValueRead := s.noValueRead || !s.holdsOperands })) ∧
  (trickleEnabled Config.initTrickleValue = false ∧ Config.initControlValue.getLsbD 7 = false)

/-- R161: while init writes are pending, `req_ready` is 0, and no step without reset writes `rsp_valid` or `rsp_status`; the
flag falls only at the end of the second write. -/
def Obligations.InitPolicyGivesNoResponse : Prop :=
  ∀ s t : State, s.initPending = true → s.rst = false → step s = .next t →
    s.reqReady = false ∧ t.rspValid = s.rspValid ∧ t.rspStatus = s.rspStatus ∧
    (t.initPending = false → s.initSecond = true ∧ s.phase ≠ .idle ∧ t.phase = .idle)

/-! ### The peripheral -/

/-- R221: at a CE event the responder, in a run with no abort recorded (R207), goes to CMD with no bit counted, or to OFF without
driving; nothing else of it changes. -/
def Obligations.ResponderFollowsChipEnable : Prop :=
  ∀ s : State, s.periph.kind = .responder → s.aborted = false →
    (emit (.ce true) s).periph = { s.periph with mode := .cmd, nbits := 0 } ∧
    (emit (.ce false) s).periph = { s.periph with mode := .off, drive := false }

/-- R222: the responder at a rising edge. Below the eighth bit it shifts the line's level in. The eighth bit of a data byte
writes the register at the pointer, where the pointer is below the limit, and a burst moves the pointer. In the other modes a
rising edge does nothing. Once the eighth bit of a command byte is in, the next step takes the command (log 1), if it does not
answer a request (R25), which in a transaction it cannot: a byte that names nothing is ignored; any other sets the subspace, the burst flag, the pointer and the direction. -/
def Obligations.ResponderRisingEdge : Prop :=
  (∀ s : State, s.periph.kind = .responder → s.clk = false → s.aborted = false →
    let p := s.periph
    let q := (emit (.clk true) s).periph
    let limit := if p.burst then (if p.rc then 31 else 8) else p.ptr + 1
    (p.mode = .cmd → p.nbits < 8 → q = { p with shift := setBit p.shift p.nbits s.line, nbits := p.nbits + 1 }) ∧
    (p.mode = .wdata → p.nbits < 7 → q = { p with shift := setBit p.shift p.nbits s.line, nbits := p.nbits + 1 }) ∧
    (p.mode = .wdata → p.nbits = 7 →
      q = { p with
        shift := setBit p.shift 7 s.line, nbits := 0,
        store := if p.ptr < limit then Cells.write p.store (cellOf p.rc p.ptr) (setBit p.shift 7 s.line) else p.store,
        ptr := if p.burst then p.ptr + 1 else p.ptr }) ∧
    (p.mode = .rdata ∨ p.mode = .ignore ∨ p.mode = .off → q = p)) ∧
  (∀ s : State, s.periph.kind = .responder → s.rst = false → s.periph.mode = .cmd → s.periph.nbits = 8 →
    s.reqReady = false ∨ s.port.valid = false →
    let c := s.periph.shift
    let index := (c.extractLsb' 1 5).toNat
    ∃ t, step s = .next t ∧
      t.periph =
        if c.getLsbD 7 = false ∨ (c.getLsbD 6 = false ∧ 9 ≤ index ∧ index ≤ 30) then
          { s.periph with nbits := 0, mode := .ignore }
        else
          { s.periph with
            nbits := 0, rc := c.getLsbD 6, burst := decide (index = 31), ptr := if index = 31 then 0 else index,
            mode := if c.getLsbD 0 then .rdata else .wdata })

/-- R223: the responder at a falling edge. In RDATA it drives the next bit of the register at the pointer, where the pointer is
below the limit, and stops driving where it is not; the eighth bit starts the count again, and a burst moves the pointer. In the
other modes a falling edge does nothing. -/
def Obligations.ResponderFallingEdge : Prop :=
  ∀ s : State, s.periph.kind = .responder → s.clk = true → s.aborted = false →
    let p := s.periph
    let q := (emit (.clk false) s).periph
    let limit := if p.burst then (if p.rc then 31 else 8) else p.ptr + 1
    (p.mode = .rdata →
      q = { p with
        drive := decide (p.ptr < limit),
        driveBit := if p.ptr < limit then (p.regByte (cellOf p.rc p.ptr)).getLsbD p.nbits else p.driveBit,
        nbits := if p.nbits + 1 = 8 then 0 else p.nbits + 1,
        ptr := if p.nbits + 1 = 8 ∧ p.burst = true then p.ptr + 1 else p.ptr }) ∧
    (p.mode ≠ .rdata → q = p)

/-- R213, R215, R64: eight rising edges carry a command byte into a peripheral that waits for one, chip or responder, bit for
bit; nothing else of it changes. That it then still stands in CMD with eight bits counted is the model's (log 1): the command is
taken in a step of its own. -/
def Obligations.CommandByteReachesThePeripheral : Prop :=
  ∀ (s : State) (phase : Phase) (idx : Option (Fin 31)) (v : Byte) (rel : Bool),
    s.periph.kind ≠ .absent → s.periph.mode = .cmd → s.periph.nbits = 0 → s.periph.drive = false →
    s.dir = .out → s.clk = false → s.aborted = false →
    (emitAll (eventsOf (writeBits phase idx v rel)) s).periph = { s.periph with shift := v, nbits := 8 }

/-- R131: a byte sent over the lines in a single transfer reaches the addressed register, and no other register changes, whatever
TRICKLE's bits or CH it writes (log 33). At the responder (R222) the register then holds it. At the chip (R216), at the eighth
rising edge (log 36), it holds it while WP is 0, as it was written (log 34), reserved bits among it (log 35); while WP is 1 it holds
what it held (R71), but that CONTROL takes its WP bit always (R72), the other bits being any value then (U11, log 14); and the
transfer is over: the chip ignores what follows (log 16). -/
def Obligations.WrittenByteReachesTheRegister : Prop :=
  ∀ (s : State) (phase : Phase) (idx : Option (Fin 31)) (v : Byte),
    s.periph.mode = .wdata → s.periph.burst = false → s.periph.nbits = 0 →
    s.periph.drive = false → s.dir = .out → s.clk = false → s.aborted = false →
    let cell := cellOf s.periph.rc s.periph.ptr
    let q := (emitAll (eventsOf (writeBits phase idx v false)) s).periph
    (s.periph.kind = .responder → ∀ a, q.regByte a = if a = cell then v else s.periph.regByte a) ∧
    (s.periph.kind = .chip →
      q.mode = .ignore ∧ q.nbits = 0 ∧ q.drive = false ∧
      (∀ a, a ≠ cell → q.regByte a = s.periph.regByte a) ∧
      (s.periph.wp = false → q.regByte cell = v) ∧
      (s.periph.wp = true → cell ≠ controlCell → q.regByte cell = s.periph.regByte cell) ∧
      (cell = controlCell → q.wp = v.getLsbD 7))

/-- R104, R214, R64: `read_bits`, from either clock level, receives the byte a peripheral that is sending has at its pointer,
bit for bit. R65, R216, R223: in a burst the pointer is then one further and the peripheral goes on sending from there; in a single
read the pointer stays, and the chip's transfer is over (log 16). Nothing else of the peripheral has changed but its driver: no
register (R73), and not the frozen record (R69). That byte is, from the responder, the register at the pointer; from the chip it
agrees with the register outside the reserved bits (R45, R75), and in a clock burst it is the frozen byte (R69). -/
def Obligations.ReadByteReachesTheEngine : Prop :=
  (∀ (s : State) (idx : Option (Fin 31)) (dest : Dest),
    s.periph.kind ≠ .absent → s.periph.mode = .rdata → s.periph.nbits = 0 → s.periph.ptr < s.periph.limit →
    s.dir = .in → s.aborted = false →
    let p := s.periph
    let t := emitAll (eventsOf (readBits s.clk idx dest)) s
    assemble t.rx = some p.outByte ∧
    t.periph =
      { p with
        nbits := 0, drive := true, driveBit := p.outByte.getLsbD 7,
        ptr := if p.burst then p.ptr + 1 else p.ptr,
        mode := if p.kind = .chip ∧ p.burst = false then .ignore else .rdata }) ∧
  (∀ p : Periph,
    (p.kind = .responder → p.outByte = p.regByte (cellOf p.rc p.ptr)) ∧
    (p.kind = .chip →
      (∀ a, p.readByte a &&& ~~~(reservedMask a) = p.regByte a &&& ~~~(reservedMask a)) ∧
      (p.burst = false ∨ p.rc = true → p.outByte = p.readByte (cellOf p.rc p.ptr)) ∧
      (p.burst = true → p.rc = false → ∀ v, Cells.read p.snapshot p.ptr = some v → p.outByte = v)))

/-- R71, R72: while WP is 1 the chip ignores a write to any register but CONTROL. A write to CONTROL takes effect whatever WP is:
WP is then bit 7 of the byte written. While WP is 0 a write takes effect, all eight bits of it, whatever they are (log 34, log 35).
No other register changes, whatever TRICKLE's bits or CH are written (log 33). What CONTROL's other bits are after a write made while
WP is 1 is not stated: they are any value (U11, log 14). -/
def Obligations.WriteProtectAtTheChip : Prop :=
  ∀ (p : Periph) (a b : Nat) (v : Byte), p.kind = .chip →
    (p.wp = true → a ≠ controlCell → (p.writeReg a v).regByte b = p.regByte b) ∧
    (p.wp = false → (p.writeReg a v).regByte b = if b = a then v else p.regByte b) ∧
    ((p.writeReg controlCell v).wp = v.getLsbD 7) ∧
    (b ≠ controlCell → (p.writeReg controlCell v).regByte b = p.regByte b)

/-- R71, R144, R216: a byte of a RAM burst that reaches the chip is, while WP is 0, written at once to the byte at the pointer, and
while WP is 1 ignored (log 14); the pointer moves on by one either way, and every other register holds what it held. -/
def Obligations.ChipWritesEachRamBurstByte : Prop :=
  ∀ (s : State) (phase : Phase) (idx : Option (Fin 31)) (v : Byte),
    s.periph.kind = .chip → s.periph.mode = .wdata → s.periph.burst = true → s.periph.rc = true → s.periph.ptr < 31 →
    s.periph.nbits = 0 → s.periph.drive = false → s.dir = .out → s.clk = false → s.aborted = false →
    let t := emitAll (eventsOf (writeBits phase idx v false)) s
    t.periph.ptr = s.periph.ptr + 1 ∧ t.periph.nbits = 0 ∧ t.periph.mode = .wdata ∧
    ∀ a, t.periph.regByte a = if a = 32 + s.periph.ptr ∧ s.periph.wp = false then v else s.periph.regByte a

/-- R144, R219: the chip's clock registers after a clock-burst write cut short are free values, each its own; the RAM holds what
it held. With nothing staged, CE falling changes no register. -/
def Obligations.CutShortClockBurstLeavesFreeValues : Prop :=
  ∀ (s : State) (a : Nat), s.periph.kind = .chip → s.aborted = false →
    (s.periph.staged ≠ [] →
      (a ≤ 8 → (emit (.ce false) s).periph.regByte a = Config.freeByte .cutShort s.periph.txn a) ∧
      (8 < a → (emit (.ce false) s).periph.regByte a = s.periph.regByte a)) ∧
    (s.periph.staged = [] → (emit (.ce false) s).periph.regByte a = s.periph.regByte a) ∧
    (emit (.ce false) s).periph.staged = [] ∧ (emit (.ce false) s).periph.mode = .off ∧
    (emit (.ce false) s).periph.drive = false

/-- R141, R65, R216, R71: a clock burst that reaches the chip. After fewer than eight bytes no register has changed, and the bytes
are staged (G15, log 14). The eighth byte ends it, and nothing stays staged. While WP is 0 it commits the record: each of the eight
registers holds the byte received for it, whatever it is (log 34, log 35), and TRICKLE and the RAM hold what they held, whatever CH is
in it (log 33). While WP is 1 the record is ignored: every register holds what it held, but CONTROL, which is a free value (U9, log
14), for every value of it. -/
def Obligations.ClockBurstWriteCommitsTheRecord : Prop :=
  ∀ (s : State) (bytes : List (Fin 31 × Byte)),
    s.periph.kind = .chip → s.periph.mode = .wdata → s.periph.burst = true → s.periph.rc = false → s.periph.ptr = 0 →
    s.periph.staged = [] → s.periph.nbits = 0 → s.periph.drive = false → s.dir = .out → s.clk = false →
    s.aborted = false →
    let t := emitAll (eventsOf (bytes.flatMap (fun kv => writeBits .writing (some kv.1) kv.2 false))) s
    (bytes.length < 8 → (∀ a, t.periph.regByte a = s.periph.regByte a) ∧ (bytes ≠ [] → t.periph.staged ≠ [])) ∧
    (bytes.length = 8 →
      t.periph.staged = [] ∧ (∀ a, 8 ≤ a → t.periph.regByte a = s.periph.regByte a) ∧
      (s.periph.wp = false → ∀ a, a < 8 → some (t.periph.regByte a) = (bytes.map Prod.snd)[a]?) ∧
      (s.periph.wp = true → ∀ a, a < 8 → t.periph.regByte a =
        if a = controlCell then Config.freeByte .burstControl s.periph.txn controlCell else s.periph.regByte a))

/-- R73: in the data phase of a read no event but a CE event changes a register of the peripheral, and R69: no event changes
the frozen record. In a run with no abort recorded (R207). -/
def Obligations.ReadsHaveNoSideEffect : Prop :=
  ∀ (e : Event) (s : State), s.aborted = false →
    (s.periph.mode = .rdata → (∀ b, e ≠ .ce b) → (emit e s).periph.store = s.periph.store) ∧
    (emit e s).periph.snapshot = s.periph.snapshot

/-- R217, R48: what a rising CE can change in the chip's registers is SECONDS to YEAR: CONTROL, TRICKLE and every RAM byte hold
what they held, and a clock register holds what it held or the value it has advanced to. -/
def Obligations.ClockAdvancesOnlyTheTimeRegisters : Prop :=
  ∀ (s : State) (a : Nat), s.periph.kind = .chip → s.aborted = false →
    (7 ≤ a → (emit (.ce true) s).periph.regByte a = s.periph.regByte a) ∧
    (a < 7 → (emit (.ce true) s).periph.regByte a =
      if Config.clockAdvances (s.periph.txn + 1) a then Config.freeByte .clock (s.periph.txn + 1) a
      else s.periph.regByte a)

/-- R207: an abort leaves the peripheral in any state, and so does every event from then on: every field R220 gives it (mode, bit
count, shift register, subspace, burst flag, pointer, whether it drives and at which level) and every register is a free value
(log 17), for every value of the free values. The bit count and the pointer stay in their ranges. -/
def Obligations.AbortedPeripheralIsInAnyState : Prop :=
  let lost := fun (n epoch : Nat) (p : Periph) =>
    p.mode = PeriphMode.ofDraw (Config.freeByte .aborted n 0) ∧
    p.nbits = (Config.freeByte .aborted n 1).toNat % 9 ∧ p.shift = Config.freeByte .aborted n 2 ∧
    p.rc = (Config.freeByte .aborted n 3).getLsbD 0 ∧ p.burst = (Config.freeByte .aborted n 4).getLsbD 0 ∧
    p.ptr = (Config.freeByte .aborted n 5).toNat % (if p.rc then 31 else 9) ∧
    p.drive = (Config.freeByte .aborted n 6).getLsbD 0 ∧ p.driveBit = (Config.freeByte .aborted n 7).getLsbD 0 ∧
    (∀ a, p.regByte a = Config.freeByte .unwritten epoch a) ∧ p.snapshot = [] ∧ p.staged = []
  (∀ s : State, s.rst = true → s.phase ≠ .idle → s.periph.kind ≠ .absent →
    ∃ t, step s = .next t ∧ t.aborted = true ∧ lost s.draws (s.periph.epoch + 1) t.periph) ∧
  (∀ (s : State) (e : Event), s.aborted = true → s.periph.kind ≠ .absent →
    lost s.draws (s.periph.epoch + 1) (emit e s).periph)

/-! ### Invariants -/

/-- The state after reset keeps to the invariants below. -/
def Obligations.ResetStateIsGood : Prop :=
  State.reset.Conforming ∧ State.reset.MemoriesCanonical ∧ State.reset.Safe

/-- Every step keeps every memory in canonical form, with no index that does not exist (R26, R27, R61, R62). -/
def Obligations.StepKeepsMemoriesCanonical : Prop :=
  ∀ s t : State, s.MemoriesCanonical → step s = .next t → t.MemoriesCanonical

/-- R206, R224, R103, R247, R249: every step of a conforming machine leaves it conforming: no contention unless an abort is
recorded, engine and peripheral agreed on the transaction, the latches those of the events performed, CE and the clock low
between operations. -/
def Obligations.StepKeepsConforming : Prop :=
  ∀ s t : State, s.Conforming → step s = .next t → t.Conforming

/-- R88, R107: a conforming machine never stops. With no abort recorded, no command byte outside the map reaches the chip. With one
recorded, the chip may stand before any byte, since its state is a draw (R207); that it then ignores a byte outside the map, and the
machine goes on, is the model's reading (log 18). -/
def Obligations.ConformingMachineNeverStops : Prop :=
  ∀ s : State, s.Conforming → ∃ t, step s = .next t

/-- R247: at every CE event a conforming machine performs, the clock is low. -/
def Obligations.ClockIsLowAtEveryEnableEvent : Prop :=
  ∀ (s : State) (e : Entry) (b : Bool), s.Conforming → s.phase ≠ .idle →
    s.operationTrace[s.pos]? = some e → e.event = .ce b → s.clk = false

/-- R109, R111, R108: an operation in hand, if the host does not reset, runs to its end: after some number of steps the phase is
IDLE, the rest of its trace has been emitted event by event in order and nothing else, and, if it was the host's, the response
is valid with status OK. -/
def Obligations.OperationRunsItsWholeTrace : Prop :=
  ∀ s : State, s.Conforming → s.phase ≠ .idle → s.noResetToCome →
    ∃ n t, core.run n s = .next t ∧ t.phase = .idle ∧
      t.trace = (eventsOf (s.operationTrace.drop s.pos)).reverse ++ s.trace ∧
      (s.initPending = false → t.rspValid = true ∧ t.rspStatus = some .ok)

/-- R132: against the reference responder and with the default map, WRITE of a register or RAM byte and then READ of it returns
the byte written: the run of those two requests ends with status OK and that byte in `rsp_rdata`. The end of a run is
`State.runEnded`, and neither of the two requests is withdrawn unanswered, so log 37 (the model's choice) decides nothing here. -/
def Obligations.WriteThenReadReturnsTheByte : Prop :=
  ∀ (s : State) (held : Bool) (addr v w : Byte) (b₁ b₂ : List Byte), s.Conforming → s.reqReady = true → s.rst = false →
    s.periph.kind = .responder → s.aborted = false →
    s.params.regMap = Config.regMap → validAddr Config.regMap addr = true →
    addr &&& 0xFE ≠ 0xBE → addr &&& 0xFE ≠ 0xFE →
    s.port = ⟨true, held, ⟨1, addr, v, b₁⟩⟩ → s.script = [.request ⟨0, addr, w, b₂⟩] →
    ∃ n t, core.run n s = .next t ∧ t.runEnded = true ∧ t.rspStatus = some .ok ∧ t.rspRdata = some v ∧
      t.contention = false

/-! ### The record codec -/

/-- R170, R171: `bcd_enc` is defined on 0 to 99 alone, with the tens in the high nibble; `bcd_dec` is defined on every byte, by
the arithmetic of its nibbles, gives at most 165, and undoes `bcd_enc`. -/
def Obligations.BcdRoundTrip : Prop :=
  (∀ n : Nat,
    (n ≤ 99 → ∃ b, bcdEnc n = some b ∧ b.toNat = n / 10 * 16 + n % 10 ∧ bcdDec b = n) ∧ (99 < n → bcdEnc n = none)) ∧
  (∀ b : Byte, bcdDec b = b.toNat / 16 * 10 + b.toNat % 16 ∧ bcdDec b ≤ 165)

/-- R181: each setter has a result exactly on its domain, keeps every reserved bit of the old byte, and its result decodes back
to the value set. -/
def Obligations.SettersKeepReservedBits : Prop :=
  ∀ (r : ClockRecord) (n : Nat) (ch wp : Bool) (m : Meridiem),
    ((∃ b, setSeconds r.byte0 n ch = some b) ↔ n ≤ 59) ∧
    (∀ b, setSeconds r.byte0 n ch = some b →
      secondsOf { r with byte0 := b } = n ∧ clockHaltOf { r with byte0 := b } = ch) ∧
    ((∃ b, setMinutes r.byte1 n = some b) ↔ n ≤ 59) ∧
    (∀ b, setMinutes r.byte1 n = some b → minutesOf { r with byte1 := b } = n ∧ b &&& 0x80 = r.byte1 &&& 0x80) ∧
    ((∃ b, setHour r.byte2 (.hour24 n) = some b) ↔ n ≤ 23) ∧
    (∀ b, setHour r.byte2 (.hour24 n) = some b →
      hourOf { r with byte2 := b } = .hour24 n ∧ b &&& 0x40 = r.byte2 &&& 0x40) ∧
    ((∃ b, setHour r.byte2 (.hour12 n m) = some b) ↔ 1 ≤ n ∧ n ≤ 12) ∧
    (∀ b, setHour r.byte2 (.hour12 n m) = some b →
      hourOf { r with byte2 := b } = .hour12 n m ∧ b &&& 0x40 = r.byte2 &&& 0x40) ∧
    ((∃ b, setDayOfMonth r.byte3 n = some b) ↔ 1 ≤ n ∧ n ≤ 31) ∧
    (∀ b, setDayOfMonth r.byte3 n = some b → dayOfMonthOf { r with byte3 := b } = n ∧ b &&& 0xC0 = r.byte3 &&& 0xC0) ∧
    ((∃ b, setMonth r.byte4 n = some b) ↔ 1 ≤ n ∧ n ≤ 12) ∧
    (∀ b, setMonth r.byte4 n = some b → monthOf { r with byte4 := b } = n ∧ b &&& 0xE0 = r.byte4 &&& 0xE0) ∧
    ((∃ b, setDayOfWeek r.byte5 n = some b) ↔ 1 ≤ n ∧ n ≤ 7) ∧
    (∀ b, setDayOfWeek r.byte5 n = some b → dayOfWeekOf { r with byte5 := b } = n ∧ b &&& 0xF8 = r.byte5 &&& 0xF8) ∧
    ((∃ b, setYear r.byte6 n = some b) ↔ n ≤ 99) ∧
    (∀ b, setYear r.byte6 n = some b → yearOf { r with byte6 := b } = n) ∧
    writeProtectOf { r with byte7 := setWriteProtect r.byte7 wp } = wp ∧
    setWriteProtect r.byte7 wp &&& 0x7F = r.byte7 &&& 0x7F

/-- R184: a field tuple encodes exactly when every field is in its setter's domain, whatever record it is encoded over, with no
calendar check (R183), and decoding the encoded record gives the fields back. -/
def Obligations.DecodeOfEncodedRecord : Prop :=
  ∀ (old : ClockRecord) (f : ClockFields),
    ((∃ r, encodeFields old f = some r) ↔
      (f.seconds ≤ 59 ∧ f.minutes ≤ 59 ∧
        (match f.hour with | .hour24 v => v ≤ 23 | .hour12 v _ => 1 ≤ v ∧ v ≤ 12) ∧
        (1 ≤ f.dayOfMonth ∧ f.dayOfMonth ≤ 31) ∧ (1 ≤ f.month ∧ f.month ≤ 12) ∧
        (1 ≤ f.dayOfWeek ∧ f.dayOfWeek ≤ 7) ∧ f.year ≤ 99)) ∧
    (∀ r, encodeFields old f = some r → decodeFields r = f)
end

