-- ==== Sys2Proof/Laws/Memory.lean ====
section
/-! SUPPORT. The laws of cells: a read after a write, the canonical form that every memory operation keeps, and which indexes a
write adds. -/

namespace Sys2Proof.Machine

open Sys2Proof

variable {α : Type}

/-- A read of the index just written gives the value written. -/
@[simp] theorem cells_read_write_same (m : Cells α) (a : Nat) (v : α) : Cells.read (Cells.write m a v) a = some v := by
  induction m with
  | nil => simp [Cells.write, Cells.read]
  | cons kv rest ih =>
    obtain ⟨b, w⟩ := kv
    rcases Nat.lt_trichotomy a b with h | h | h
    · simp [Cells.write, Cells.read, h]
    · simp [Cells.write, Cells.read, h]
    · simp [Cells.write, Cells.read, Nat.not_lt.mpr (Nat.le_of_lt h), Nat.ne_of_gt h, ih]

/-- A write leaves every other index alone. -/
theorem cells_read_write_other (m : Cells α) {a b : Nat} (v : α) (h : b ≠ a) :
    Cells.read (Cells.write m a v) b = Cells.read m b := by
  induction m with
  | nil => simp [Cells.write, Cells.read, h]
  | cons kv rest ih =>
    obtain ⟨c, w⟩ := kv
    rcases Nat.lt_trichotomy a c with hc | hc | hc
    · simp [Cells.write, Cells.read, hc, h]
    · subst hc
      simp [Cells.write, Cells.read, h]
    · by_cases hb : b = c
      · simp [Cells.write, Cells.read, Nat.not_lt.mpr (Nat.le_of_lt hc), Nat.ne_of_gt hc, hb]
      · simp [Cells.write, Cells.read, Nat.not_lt.mpr (Nat.le_of_lt hc), Nat.ne_of_gt hc, hb, ih]

/-- The read of one index after the write of any. -/
theorem cells_read_write (m : Cells α) (a b : Nat) (v : α) :
    Cells.read (Cells.write m a v) b = if b = a then some v else Cells.read m b := by
  by_cases h : b = a
  · simp [h]
  · simp [h, cells_read_write_other]

/-- The canonical form is that indexes rise strictly along the list. -/
theorem cells_wf_iff_pairwise (m : Cells α) : Cells.wf m = true ↔ m.Pairwise (fun x y => x.1 < y.1) := by
  induction m with
  | nil => simp [Cells.wf]
  | cons x rest ih =>
    cases rest with
    | nil => simp [Cells.wf]
    | cons y rest =>
      obtain ⟨a, v⟩ := x
      obtain ⟨b, w⟩ := y
      simp only [Cells.wf, Bool.and_eq_true, decide_eq_true_eq, ih, List.pairwise_cons, List.mem_cons]
      constructor
      · rintro ⟨hab, hb, hr⟩
        refine ⟨?_, hb, hr⟩
        rintro z (rfl | hz)
        · exact hab
        · exact Nat.lt_trans hab (hb z hz)
      · rintro ⟨ha, hb, hr⟩
        exact ⟨ha _ (Or.inl rfl), hb, hr⟩

/-- What a write can put in the list: the new cell, or cells that were there. -/
theorem mem_of_mem_write {m : Cells α} {a : Nat} {v : α} {x : Nat × α} (h : x ∈ Cells.write m a v) :
    x = (a, v) ∨ x ∈ m := by
  induction m with
  | nil => simpa [Cells.write] using h
  | cons kv rest ih =>
    obtain ⟨b, w⟩ := kv
    simp only [Cells.write] at h
    split at h
    · simpa using h
    · split at h
      · rcases List.mem_cons.mp h with h | h
        · exact Or.inl h
        · exact Or.inr (List.mem_cons_of_mem _ h)
      · rcases List.mem_cons.mp h with h | h
        · exact Or.inr (h ▸ List.mem_cons_self)
        · exact (ih h).imp_right (List.mem_cons_of_mem _)

/-- A write keeps the canonical form. -/
theorem cells_wf_write {m : Cells α} (h : Cells.wf m = true) (a : Nat) (v : α) : Cells.wf (Cells.write m a v) = true := by
  rw [cells_wf_iff_pairwise] at h ⊢
  induction m with
  | nil => simp [Cells.write]
  | cons kv rest ih =>
    obtain ⟨b, w⟩ := kv
    obtain ⟨hb, hr⟩ := List.pairwise_cons.mp h
    simp only [Cells.write]
    split
    · rename_i hab
      refine List.pairwise_cons.mpr ⟨?_, h⟩
      intro z hz
      rcases List.mem_cons.mp hz with rfl | hz
      · exact hab
      · exact Nat.lt_trans hab (hb z hz)
    · rename_i hab
      split
      · rename_i hab'
        subst hab'
        exact List.pairwise_cons.mpr ⟨hb, hr⟩
      · rename_i hab'
        refine List.pairwise_cons.mpr ⟨?_, ih hr⟩
        intro z hz
        rcases mem_of_mem_write hz with rfl | hz
        · exact Nat.lt_of_le_of_ne (Nat.not_lt.mp hab) (Ne.symm hab')
        · exact hb z hz

/-- The same for byte memories. -/
theorem memory_wf_write {m : Memory} (h : Memory.wf m = true) (a : Nat) (v : Byte) :
    Memory.wf (Cells.write m a v) = true := cells_wf_write h a v

/-- A write of an index that a property allows keeps the property of every index. -/
theorem cells_forall_write {m : Cells α} {P : Nat → Prop} (h : ∀ kv ∈ m, P kv.1) {a : Nat} (ha : P a) (v : α) :
    ∀ kv ∈ Cells.write m a v, P kv.1 := by
  intro kv hkv
  rcases mem_of_mem_write hkv with rfl | hm
  · exact ha
  · exact h kv hm

/-- The indexes of a burst rise strictly. -/
theorem burstIndices_pairwise (n : Nat) : (burstIndices n).Pairwise (fun x y => x.val < y.val) := by
  have h : (List.finRange 31).Pairwise (fun x y : Fin 31 => x.val < y.val) := by decide
  exact h.sublist (List.take_sublist n _)

/-- The indexes of a range are those asked for. -/
@[simp] theorem readRange_indices (m : Memory) (ks : List (Fin 31)) : (readRange m ks).map Prod.fst = ks := by
  simp [readRange, Function.comp_def]

/-- A range holds its values iff each of its indexes does. -/
theorem holdsRange_iff {m : Memory} {ks : List (Fin 31)} :
    holdsRange m ks = true ↔ ∀ k ∈ ks, (Cells.read m k.val).isSome = true := by
  simp [holdsRange]

/-- A register that holds a value reads as it. -/
@[simp] theorem valueOr_some (r : Register) (n : Nat) (v : Byte) : valueOr r n (some v) = v := rfl

/-- Cells made from burst bytes whose indexes rise are canonical. -/
theorem cellsOf_wf {bs : List (Fin 31 × Byte)} (h : (bs.map Prod.fst).Pairwise (fun x y => x.val < y.val)) :
    Memory.wf (cellsOf bs) = true := by
  rw [Memory.wf, cells_wf_iff_pairwise, cellsOf]
  rw [List.pairwise_map] at h ⊢
  exact h

/-- Cells made from burst bytes have indexes below 31. -/
theorem cellsOf_below (bs : List (Fin 31 × Byte)) : ∀ kv ∈ cellsOf bs, kv.1 < 31 := by
  intro kv hkv
  simp only [cellsOf, List.mem_map] at hkv
  obtain ⟨x, -, rfl⟩ := hkv
  exact x.1.isLt

/-- The first components of a zip are a sublist of the first list. -/
theorem fst_zip_sublist {β γ : Type} (xs : List β) (ys : List γ) : ((xs.zip ys).map Prod.fst).Sublist xs := by
  induction xs generalizing ys with
  | nil => simp
  | cons x xs ih =>
    cases ys with
    | nil => simp
    | cons y ys => simpa using ih ys

/-- The payload's cells are canonical. -/
theorem payloadCells_wf (n : Nat) (payload : List Byte) : Memory.wf (payloadCells n payload) = true := by
  refine cellsOf_wf ?_
  have h := burstIndices_pairwise n
  exact h.sublist (fst_zip_sublist _ _)

end Sys2Proof.Machine
end

