-- ==== Sys2Proof/Laws/State.lean ====
section
/-! SUPPORT. One lemma per field per named update of the state, each true by rfl, so that no later proof unfolds a record
update. -/

namespace Sys2Proof.Machine

open Sys2Proof

/-! ### beginOp -/

@[simp] theorem beginOp_params (s : State) (o : HostOp) (c t : Byte) (b : Memory) : (s.beginOp o c t b).params = s.params := rfl
@[simp] theorem beginOp_phase (s : State) (o : HostOp) (c t : Byte) (b : Memory) : (s.beginOp o c t b).phase = .active := rfl
@[simp] theorem beginOp_pos (s : State) (o : HostOp) (c t : Byte) (b : Memory) : (s.beginOp o c t b).pos = 0 := rfl
@[simp] theorem beginOp_initPending (s : State) (o : HostOp) (c t : Byte) (b : Memory) : (s.beginOp o c t b).initPending = s.initPending := rfl
@[simp] theorem beginOp_initSecond (s : State) (o : HostOp) (c t : Byte) (b : Memory) : (s.beginOp o c t b).initSecond = s.initSecond := rfl
@[simp] theorem beginOp_ce (s : State) (o : HostOp) (c t : Byte) (b : Memory) : (s.beginOp o c t b).ce = s.ce := rfl
@[simp] theorem beginOp_clk (s : State) (o : HostOp) (c t : Byte) (b : Memory) : (s.beginOp o c t b).clk = s.clk := rfl
@[simp] theorem beginOp_dout (s : State) (o : HostOp) (c t : Byte) (b : Memory) : (s.beginOp o c t b).dout = s.dout := rfl
@[simp] theorem beginOp_dir (s : State) (o : HostOp) (c t : Byte) (b : Memory) : (s.beginOp o c t b).dir = s.dir := rfl
@[simp] theorem beginOp_rspValid (s : State) (o : HostOp) (c t : Byte) (b : Memory) : (s.beginOp o c t b).rspValid = s.rspValid := rfl
@[simp] theorem beginOp_rspStatus (s : State) (o : HostOp) (c t : Byte) (b : Memory) : (s.beginOp o c t b).rspStatus = s.rspStatus := rfl
@[simp] theorem beginOp_rspRdata (s : State) (o : HostOp) (c t : Byte) (b : Memory) : (s.beginOp o c t b).rspRdata = s.rspRdata := rfl
@[simp] theorem beginOp_rspRbuf (s : State) (o : HostOp) (c t : Byte) (b : Memory) : (s.beginOp o c t b).rspRbuf = s.rspRbuf := rfl
@[simp] theorem beginOp_op (s : State) (o : HostOp) (c t : Byte) (b : Memory) : (s.beginOp o c t b).op = some o := rfl
@[simp] theorem beginOp_cmd (s : State) (o : HostOp) (c t : Byte) (b : Memory) : (s.beginOp o c t b).cmd = some c := rfl
@[simp] theorem beginOp_tx (s : State) (o : HostOp) (c t : Byte) (b : Memory) : (s.beginOp o c t b).tx = some t := rfl
@[simp] theorem beginOp_rx (s : State) (o : HostOp) (c t : Byte) (b : Memory) : (s.beginOp o c t b).rx = [] := rfl
@[simp] theorem beginOp_bit (s : State) (o : HostOp) (c t : Byte) (b : Memory) : (s.beginOp o c t b).bit = none := rfl
@[simp] theorem beginOp_idx (s : State) (o : HostOp) (c t : Byte) (b : Memory) : (s.beginOp o c t b).idx = none := rfl
@[simp] theorem beginOp_buf (s : State) (o : HostOp) (c t : Byte) (b : Memory) : (s.beginOp o c t b).buf = b := rfl
@[simp] theorem beginOp_waitCtr (s : State) (o : HostOp) (c t : Byte) (b : Memory) : (s.beginOp o c t b).waitCtr = none := rfl
@[simp] theorem beginOp_contention (s : State) (o : HostOp) (c t : Byte) (b : Memory) : (s.beginOp o c t b).contention = s.contention := rfl
@[simp] theorem beginOp_aborted (s : State) (o : HostOp) (c t : Byte) (b : Memory) : (s.beginOp o c t b).aborted = s.aborted := rfl
@[simp] theorem beginOp_noValueRead (s : State) (o : HostOp) (c t : Byte) (b : Memory) : (s.beginOp o c t b).noValueRead = s.noValueRead := rfl
@[simp] theorem beginOp_trace (s : State) (o : HostOp) (c t : Byte) (b : Memory) : (s.beginOp o c t b).trace = s.trace := rfl
@[simp] theorem beginOp_draws (s : State) (o : HostOp) (c t : Byte) (b : Memory) : (s.beginOp o c t b).draws = s.draws := rfl
@[simp] theorem beginOp_port (s : State) (o : HostOp) (c t : Byte) (b : Memory) : (s.beginOp o c t b).port = s.port := rfl
@[simp] theorem beginOp_rst (s : State) (o : HostOp) (c t : Byte) (b : Memory) : (s.beginOp o c t b).rst = s.rst := rfl
@[simp] theorem beginOp_cfgInitClear (s : State) (o : HostOp) (c t : Byte) (b : Memory) : (s.beginOp o c t b).cfgInitClear = s.cfgInitClear := rfl
@[simp] theorem beginOp_script (s : State) (o : HostOp) (c t : Byte) (b : Memory) : (s.beginOp o c t b).script = s.script := rfl
@[simp] theorem beginOp_periph (s : State) (o : HostOp) (c t : Byte) (b : Memory) : (s.beginOp o c t b).periph = s.periph := rfl

/-! ### accept -/

@[simp] theorem accept_params (s : State) (o : HostOp) (c t : Byte) (b : Memory) : (s.accept o c t b).params = s.params := rfl
@[simp] theorem accept_phase (s : State) (o : HostOp) (c t : Byte) (b : Memory) : (s.accept o c t b).phase = .active := rfl
@[simp] theorem accept_pos (s : State) (o : HostOp) (c t : Byte) (b : Memory) : (s.accept o c t b).pos = 0 := rfl
@[simp] theorem accept_initPending (s : State) (o : HostOp) (c t : Byte) (b : Memory) : (s.accept o c t b).initPending = s.initPending := rfl
@[simp] theorem accept_initSecond (s : State) (o : HostOp) (c t : Byte) (b : Memory) : (s.accept o c t b).initSecond = s.initSecond := rfl
@[simp] theorem accept_ce (s : State) (o : HostOp) (c t : Byte) (b : Memory) : (s.accept o c t b).ce = s.ce := rfl
@[simp] theorem accept_clk (s : State) (o : HostOp) (c t : Byte) (b : Memory) : (s.accept o c t b).clk = s.clk := rfl
@[simp] theorem accept_dout (s : State) (o : HostOp) (c t : Byte) (b : Memory) : (s.accept o c t b).dout = s.dout := rfl
@[simp] theorem accept_dir (s : State) (o : HostOp) (c t : Byte) (b : Memory) : (s.accept o c t b).dir = s.dir := rfl
@[simp] theorem accept_rspValid (s : State) (o : HostOp) (c t : Byte) (b : Memory) : (s.accept o c t b).rspValid = false := rfl
@[simp] theorem accept_rspStatus (s : State) (o : HostOp) (c t : Byte) (b : Memory) : (s.accept o c t b).rspStatus = s.rspStatus := rfl
@[simp] theorem accept_rspRdata (s : State) (o : HostOp) (c t : Byte) (b : Memory) : (s.accept o c t b).rspRdata = none := rfl
@[simp] theorem accept_rspRbuf (s : State) (o : HostOp) (c t : Byte) (b : Memory) : (s.accept o c t b).rspRbuf = [] := rfl
@[simp] theorem accept_op (s : State) (o : HostOp) (c t : Byte) (b : Memory) : (s.accept o c t b).op = some o := rfl
@[simp] theorem accept_cmd (s : State) (o : HostOp) (c t : Byte) (b : Memory) : (s.accept o c t b).cmd = some c := rfl
@[simp] theorem accept_tx (s : State) (o : HostOp) (c t : Byte) (b : Memory) : (s.accept o c t b).tx = some t := rfl
@[simp] theorem accept_rx (s : State) (o : HostOp) (c t : Byte) (b : Memory) : (s.accept o c t b).rx = [] := rfl
@[simp] theorem accept_bit (s : State) (o : HostOp) (c t : Byte) (b : Memory) : (s.accept o c t b).bit = none := rfl
@[simp] theorem accept_idx (s : State) (o : HostOp) (c t : Byte) (b : Memory) : (s.accept o c t b).idx = none := rfl
@[simp] theorem accept_buf (s : State) (o : HostOp) (c t : Byte) (b : Memory) : (s.accept o c t b).buf = b := rfl
@[simp] theorem accept_waitCtr (s : State) (o : HostOp) (c t : Byte) (b : Memory) : (s.accept o c t b).waitCtr = none := rfl
@[simp] theorem accept_contention (s : State) (o : HostOp) (c t : Byte) (b : Memory) : (s.accept o c t b).contention = s.contention := rfl
@[simp] theorem accept_aborted (s : State) (o : HostOp) (c t : Byte) (b : Memory) : (s.accept o c t b).aborted = s.aborted := rfl
@[simp] theorem accept_noValueRead (s : State) (o : HostOp) (c t : Byte) (b : Memory) : (s.accept o c t b).noValueRead = s.noValueRead := rfl
@[simp] theorem accept_trace (s : State) (o : HostOp) (c t : Byte) (b : Memory) : (s.accept o c t b).trace = s.trace := rfl
@[simp] theorem accept_draws (s : State) (o : HostOp) (c t : Byte) (b : Memory) : (s.accept o c t b).draws = s.draws := rfl
@[simp] theorem accept_port (s : State) (o : HostOp) (c t : Byte) (b : Memory) : (s.accept o c t b).port = s.port := rfl
@[simp] theorem accept_rst (s : State) (o : HostOp) (c t : Byte) (b : Memory) : (s.accept o c t b).rst = s.rst := rfl
@[simp] theorem accept_cfgInitClear (s : State) (o : HostOp) (c t : Byte) (b : Memory) : (s.accept o c t b).cfgInitClear = s.cfgInitClear := rfl
@[simp] theorem accept_script (s : State) (o : HostOp) (c t : Byte) (b : Memory) : (s.accept o c t b).script = s.script := rfl
@[simp] theorem accept_periph (s : State) (o : HostOp) (c t : Byte) (b : Memory) : (s.accept o c t b).periph = s.periph := rfl

/-! ### reject -/

@[simp] theorem reject_params (s : State) (st : Status) : (s.reject st).params = s.params := rfl
@[simp] theorem reject_phase (s : State) (st : Status) : (s.reject st).phase = s.phase := rfl
@[simp] theorem reject_pos (s : State) (st : Status) : (s.reject st).pos = s.pos := rfl
@[simp] theorem reject_initPending (s : State) (st : Status) : (s.reject st).initPending = s.initPending := rfl
@[simp] theorem reject_initSecond (s : State) (st : Status) : (s.reject st).initSecond = s.initSecond := rfl
@[simp] theorem reject_ce (s : State) (st : Status) : (s.reject st).ce = s.ce := rfl
@[simp] theorem reject_clk (s : State) (st : Status) : (s.reject st).clk = s.clk := rfl
@[simp] theorem reject_dout (s : State) (st : Status) : (s.reject st).dout = s.dout := rfl
@[simp] theorem reject_dir (s : State) (st : Status) : (s.reject st).dir = s.dir := rfl
@[simp] theorem reject_rspValid (s : State) (st : Status) : (s.reject st).rspValid = true := rfl
@[simp] theorem reject_rspStatus (s : State) (st : Status) : (s.reject st).rspStatus = some st := rfl
@[simp] theorem reject_rspRdata (s : State) (st : Status) : (s.reject st).rspRdata = none := rfl
@[simp] theorem reject_rspRbuf (s : State) (st : Status) : (s.reject st).rspRbuf = [] := rfl
@[simp] theorem reject_op (s : State) (st : Status) : (s.reject st).op = s.op := rfl
@[simp] theorem reject_cmd (s : State) (st : Status) : (s.reject st).cmd = s.cmd := rfl
@[simp] theorem reject_tx (s : State) (st : Status) : (s.reject st).tx = s.tx := rfl
@[simp] theorem reject_rx (s : State) (st : Status) : (s.reject st).rx = s.rx := rfl
@[simp] theorem reject_bit (s : State) (st : Status) : (s.reject st).bit = s.bit := rfl
@[simp] theorem reject_idx (s : State) (st : Status) : (s.reject st).idx = s.idx := rfl
@[simp] theorem reject_buf (s : State) (st : Status) : (s.reject st).buf = s.buf := rfl
@[simp] theorem reject_waitCtr (s : State) (st : Status) : (s.reject st).waitCtr = s.waitCtr := rfl
@[simp] theorem reject_contention (s : State) (st : Status) : (s.reject st).contention = s.contention := rfl
@[simp] theorem reject_aborted (s : State) (st : Status) : (s.reject st).aborted = s.aborted := rfl
@[simp] theorem reject_noValueRead (s : State) (st : Status) : (s.reject st).noValueRead = s.noValueRead := rfl
@[simp] theorem reject_trace (s : State) (st : Status) : (s.reject st).trace = s.trace := rfl
@[simp] theorem reject_draws (s : State) (st : Status) : (s.reject st).draws = s.draws := rfl
@[simp] theorem reject_port (s : State) (st : Status) : (s.reject st).port = s.port := rfl
@[simp] theorem reject_rst (s : State) (st : Status) : (s.reject st).rst = s.rst := rfl
@[simp] theorem reject_cfgInitClear (s : State) (st : Status) : (s.reject st).cfgInitClear = s.cfgInitClear := rfl
@[simp] theorem reject_script (s : State) (st : Status) : (s.reject st).script = s.script := rfl
@[simp] theorem reject_periph (s : State) (st : Status) : (s.reject st).periph = s.periph := rfl

/-! ### tick -/

@[simp] theorem tick_params (s : State) (n : Nat) : (s.tick n).params = s.params := rfl
@[simp] theorem tick_phase (s : State) (n : Nat) : (s.tick n).phase = s.phase := rfl
@[simp] theorem tick_pos (s : State) (n : Nat) : (s.tick n).pos = s.pos := rfl
@[simp] theorem tick_initPending (s : State) (n : Nat) : (s.tick n).initPending = s.initPending := rfl
@[simp] theorem tick_initSecond (s : State) (n : Nat) : (s.tick n).initSecond = s.initSecond := rfl
@[simp] theorem tick_ce (s : State) (n : Nat) : (s.tick n).ce = s.ce := rfl
@[simp] theorem tick_clk (s : State) (n : Nat) : (s.tick n).clk = s.clk := rfl
@[simp] theorem tick_dout (s : State) (n : Nat) : (s.tick n).dout = s.dout := rfl
@[simp] theorem tick_dir (s : State) (n : Nat) : (s.tick n).dir = s.dir := rfl
@[simp] theorem tick_rspValid (s : State) (n : Nat) : (s.tick n).rspValid = s.rspValid := rfl
@[simp] theorem tick_rspStatus (s : State) (n : Nat) : (s.tick n).rspStatus = s.rspStatus := rfl
@[simp] theorem tick_rspRdata (s : State) (n : Nat) : (s.tick n).rspRdata = s.rspRdata := rfl
@[simp] theorem tick_rspRbuf (s : State) (n : Nat) : (s.tick n).rspRbuf = s.rspRbuf := rfl
@[simp] theorem tick_op (s : State) (n : Nat) : (s.tick n).op = s.op := rfl
@[simp] theorem tick_cmd (s : State) (n : Nat) : (s.tick n).cmd = s.cmd := rfl
@[simp] theorem tick_tx (s : State) (n : Nat) : (s.tick n).tx = s.tx := rfl
@[simp] theorem tick_rx (s : State) (n : Nat) : (s.tick n).rx = s.rx := rfl
@[simp] theorem tick_bit (s : State) (n : Nat) : (s.tick n).bit = s.bit := rfl
@[simp] theorem tick_idx (s : State) (n : Nat) : (s.tick n).idx = s.idx := rfl
@[simp] theorem tick_buf (s : State) (n : Nat) : (s.tick n).buf = s.buf := rfl
@[simp] theorem tick_waitCtr (s : State) (n : Nat) : (s.tick n).waitCtr = some n := rfl
@[simp] theorem tick_contention (s : State) (n : Nat) : (s.tick n).contention = s.contention := rfl
@[simp] theorem tick_aborted (s : State) (n : Nat) : (s.tick n).aborted = s.aborted := rfl
@[simp] theorem tick_noValueRead (s : State) (n : Nat) : (s.tick n).noValueRead = s.noValueRead := rfl
@[simp] theorem tick_trace (s : State) (n : Nat) : (s.tick n).trace = s.trace := rfl
@[simp] theorem tick_draws (s : State) (n : Nat) : (s.tick n).draws = s.draws := rfl
@[simp] theorem tick_port (s : State) (n : Nat) : (s.tick n).port = s.port := rfl
@[simp] theorem tick_rst (s : State) (n : Nat) : (s.tick n).rst = s.rst := rfl
@[simp] theorem tick_cfgInitClear (s : State) (n : Nat) : (s.tick n).cfgInitClear = s.cfgInitClear := rfl
@[simp] theorem tick_script (s : State) (n : Nat) : (s.tick n).script = s.script := rfl
@[simp] theorem tick_periph (s : State) (n : Nat) : (s.tick n).periph = s.periph := rfl

/-! ### record -/

@[simp] theorem record_params (s : State) (e : Event) : (s.record e).params = s.params := rfl
@[simp] theorem record_phase (s : State) (e : Event) : (s.record e).phase = s.phase := rfl
@[simp] theorem record_pos (s : State) (e : Event) : (s.record e).pos = s.pos := rfl
@[simp] theorem record_initPending (s : State) (e : Event) : (s.record e).initPending = s.initPending := rfl
@[simp] theorem record_initSecond (s : State) (e : Event) : (s.record e).initSecond = s.initSecond := rfl
@[simp] theorem record_ce (s : State) (e : Event) : (s.record e).ce = s.ce := rfl
@[simp] theorem record_clk (s : State) (e : Event) : (s.record e).clk = s.clk := rfl
@[simp] theorem record_dout (s : State) (e : Event) : (s.record e).dout = s.dout := rfl
@[simp] theorem record_dir (s : State) (e : Event) : (s.record e).dir = s.dir := rfl
@[simp] theorem record_rspValid (s : State) (e : Event) : (s.record e).rspValid = s.rspValid := rfl
@[simp] theorem record_rspStatus (s : State) (e : Event) : (s.record e).rspStatus = s.rspStatus := rfl
@[simp] theorem record_rspRdata (s : State) (e : Event) : (s.record e).rspRdata = s.rspRdata := rfl
@[simp] theorem record_rspRbuf (s : State) (e : Event) : (s.record e).rspRbuf = s.rspRbuf := rfl
@[simp] theorem record_op (s : State) (e : Event) : (s.record e).op = s.op := rfl
@[simp] theorem record_cmd (s : State) (e : Event) : (s.record e).cmd = s.cmd := rfl
@[simp] theorem record_tx (s : State) (e : Event) : (s.record e).tx = s.tx := rfl
@[simp] theorem record_rx (s : State) (e : Event) : (s.record e).rx = s.rx := rfl
@[simp] theorem record_bit (s : State) (e : Event) : (s.record e).bit = s.bit := rfl
@[simp] theorem record_idx (s : State) (e : Event) : (s.record e).idx = s.idx := rfl
@[simp] theorem record_buf (s : State) (e : Event) : (s.record e).buf = s.buf := rfl
@[simp] theorem record_waitCtr (s : State) (e : Event) : (s.record e).waitCtr = s.waitCtr := rfl
@[simp] theorem record_contention (s : State) (e : Event) : (s.record e).contention = s.contention := rfl
@[simp] theorem record_aborted (s : State) (e : Event) : (s.record e).aborted = s.aborted := rfl
@[simp] theorem record_noValueRead (s : State) (e : Event) : (s.record e).noValueRead = s.noValueRead := rfl
@[simp] theorem record_trace (s : State) (e : Event) : (s.record e).trace = e :: s.trace := rfl
@[simp] theorem record_draws (s : State) (e : Event) : (s.record e).draws = s.draws + 1 := rfl
@[simp] theorem record_port (s : State) (e : Event) : (s.record e).port = s.port := rfl
@[simp] theorem record_rst (s : State) (e : Event) : (s.record e).rst = s.rst := rfl
@[simp] theorem record_cfgInitClear (s : State) (e : Event) : (s.record e).cfgInitClear = s.cfgInitClear := rfl
@[simp] theorem record_script (s : State) (e : Event) : (s.record e).script = s.script := rfl
@[simp] theorem record_periph (s : State) (e : Event) : (s.record e).periph = s.periph := rfl

/-! ### noteContention -/

@[simp] theorem noteContention_params (s : State) : (s.noteContention).params = s.params := rfl
@[simp] theorem noteContention_phase (s : State) : (s.noteContention).phase = s.phase := rfl
@[simp] theorem noteContention_pos (s : State) : (s.noteContention).pos = s.pos := rfl
@[simp] theorem noteContention_initPending (s : State) : (s.noteContention).initPending = s.initPending := rfl
@[simp] theorem noteContention_initSecond (s : State) : (s.noteContention).initSecond = s.initSecond := rfl
@[simp] theorem noteContention_ce (s : State) : (s.noteContention).ce = s.ce := rfl
@[simp] theorem noteContention_clk (s : State) : (s.noteContention).clk = s.clk := rfl
@[simp] theorem noteContention_dout (s : State) : (s.noteContention).dout = s.dout := rfl
@[simp] theorem noteContention_dir (s : State) : (s.noteContention).dir = s.dir := rfl
@[simp] theorem noteContention_rspValid (s : State) : (s.noteContention).rspValid = s.rspValid := rfl
@[simp] theorem noteContention_rspStatus (s : State) : (s.noteContention).rspStatus = s.rspStatus := rfl
@[simp] theorem noteContention_rspRdata (s : State) : (s.noteContention).rspRdata = s.rspRdata := rfl
@[simp] theorem noteContention_rspRbuf (s : State) : (s.noteContention).rspRbuf = s.rspRbuf := rfl
@[simp] theorem noteContention_op (s : State) : (s.noteContention).op = s.op := rfl
@[simp] theorem noteContention_cmd (s : State) : (s.noteContention).cmd = s.cmd := rfl
@[simp] theorem noteContention_tx (s : State) : (s.noteContention).tx = s.tx := rfl
@[simp] theorem noteContention_rx (s : State) : (s.noteContention).rx = s.rx := rfl
@[simp] theorem noteContention_bit (s : State) : (s.noteContention).bit = s.bit := rfl
@[simp] theorem noteContention_idx (s : State) : (s.noteContention).idx = s.idx := rfl
@[simp] theorem noteContention_buf (s : State) : (s.noteContention).buf = s.buf := rfl
@[simp] theorem noteContention_waitCtr (s : State) : (s.noteContention).waitCtr = s.waitCtr := rfl
@[simp] theorem noteContention_contention (s : State) : (s.noteContention).contention = (s.contention || (s.dir == .out && s.periph.drive)) := rfl
@[simp] theorem noteContention_aborted (s : State) : (s.noteContention).aborted = s.aborted := rfl
@[simp] theorem noteContention_noValueRead (s : State) : (s.noteContention).noValueRead = s.noValueRead := rfl
@[simp] theorem noteContention_trace (s : State) : (s.noteContention).trace = s.trace := rfl
@[simp] theorem noteContention_draws (s : State) : (s.noteContention).draws = s.draws := rfl
@[simp] theorem noteContention_port (s : State) : (s.noteContention).port = s.port := rfl
@[simp] theorem noteContention_rst (s : State) : (s.noteContention).rst = s.rst := rfl
@[simp] theorem noteContention_cfgInitClear (s : State) : (s.noteContention).cfgInitClear = s.cfgInitClear := rfl
@[simp] theorem noteContention_script (s : State) : (s.noteContention).script = s.script := rfl
@[simp] theorem noteContention_periph (s : State) : (s.noteContention).periph = s.periph := rfl

/-! ### respond -/

@[simp] theorem respond_params (s : State) (b : Memory) : (s.respond b).params = s.params := rfl
@[simp] theorem respond_phase (s : State) (b : Memory) : (s.respond b).phase = .idle := rfl
@[simp] theorem respond_pos (s : State) (b : Memory) : (s.respond b).pos = s.pos := rfl
@[simp] theorem respond_initPending (s : State) (b : Memory) : (s.respond b).initPending = s.initPending := rfl
@[simp] theorem respond_initSecond (s : State) (b : Memory) : (s.respond b).initSecond = s.initSecond := rfl
@[simp] theorem respond_ce (s : State) (b : Memory) : (s.respond b).ce = s.ce := rfl
@[simp] theorem respond_clk (s : State) (b : Memory) : (s.respond b).clk = s.clk := rfl
@[simp] theorem respond_dout (s : State) (b : Memory) : (s.respond b).dout = s.dout := rfl
@[simp] theorem respond_dir (s : State) (b : Memory) : (s.respond b).dir = s.dir := rfl
@[simp] theorem respond_rspValid (s : State) (b : Memory) : (s.respond b).rspValid = true := rfl
@[simp] theorem respond_rspStatus (s : State) (b : Memory) : (s.respond b).rspStatus = some .ok := rfl
@[simp] theorem respond_rspRdata (s : State) (b : Memory) : (s.respond b).rspRdata = s.rspRdata := rfl
@[simp] theorem respond_rspRbuf (s : State) (b : Memory) : (s.respond b).rspRbuf = b := rfl
@[simp] theorem respond_op (s : State) (b : Memory) : (s.respond b).op = s.op := rfl
@[simp] theorem respond_cmd (s : State) (b : Memory) : (s.respond b).cmd = s.cmd := rfl
@[simp] theorem respond_tx (s : State) (b : Memory) : (s.respond b).tx = s.tx := rfl
@[simp] theorem respond_rx (s : State) (b : Memory) : (s.respond b).rx = s.rx := rfl
@[simp] theorem respond_bit (s : State) (b : Memory) : (s.respond b).bit = s.bit := rfl
@[simp] theorem respond_idx (s : State) (b : Memory) : (s.respond b).idx = s.idx := rfl
@[simp] theorem respond_buf (s : State) (b : Memory) : (s.respond b).buf = s.buf := rfl
@[simp] theorem respond_waitCtr (s : State) (b : Memory) : (s.respond b).waitCtr = s.waitCtr := rfl
@[simp] theorem respond_contention (s : State) (b : Memory) : (s.respond b).contention = s.contention := rfl
@[simp] theorem respond_aborted (s : State) (b : Memory) : (s.respond b).aborted = s.aborted := rfl
@[simp] theorem respond_noValueRead (s : State) (b : Memory) : (s.respond b).noValueRead = s.noValueRead := rfl
@[simp] theorem respond_trace (s : State) (b : Memory) : (s.respond b).trace = s.trace := rfl
@[simp] theorem respond_draws (s : State) (b : Memory) : (s.respond b).draws = s.draws := rfl
@[simp] theorem respond_port (s : State) (b : Memory) : (s.respond b).port = s.port := rfl
@[simp] theorem respond_rst (s : State) (b : Memory) : (s.respond b).rst = s.rst := rfl
@[simp] theorem respond_cfgInitClear (s : State) (b : Memory) : (s.respond b).cfgInitClear = s.cfgInitClear := rfl
@[simp] theorem respond_script (s : State) (b : Memory) : (s.respond b).script = s.script := rfl
@[simp] theorem respond_periph (s : State) (b : Memory) : (s.respond b).periph = s.periph := rfl

/-! ### finishInit -/

@[simp] theorem finishInit_params (s : State) : (s.finishInit).params = s.params := rfl
@[simp] theorem finishInit_phase (s : State) : (s.finishInit).phase = .idle := rfl
@[simp] theorem finishInit_pos (s : State) : (s.finishInit).pos = s.pos := rfl
@[simp] theorem finishInit_initPending (s : State) : (s.finishInit).initPending = !s.initSecond := rfl
@[simp] theorem finishInit_initSecond (s : State) : (s.finishInit).initSecond = !s.initSecond := rfl
@[simp] theorem finishInit_ce (s : State) : (s.finishInit).ce = s.ce := rfl
@[simp] theorem finishInit_clk (s : State) : (s.finishInit).clk = s.clk := rfl
@[simp] theorem finishInit_dout (s : State) : (s.finishInit).dout = s.dout := rfl
@[simp] theorem finishInit_dir (s : State) : (s.finishInit).dir = s.dir := rfl
@[simp] theorem finishInit_rspValid (s : State) : (s.finishInit).rspValid = s.rspValid := rfl
@[simp] theorem finishInit_rspStatus (s : State) : (s.finishInit).rspStatus = s.rspStatus := rfl
@[simp] theorem finishInit_rspRdata (s : State) : (s.finishInit).rspRdata = s.rspRdata := rfl
@[simp] theorem finishInit_rspRbuf (s : State) : (s.finishInit).rspRbuf = s.rspRbuf := rfl
@[simp] theorem finishInit_op (s : State) : (s.finishInit).op = s.op := rfl
@[simp] theorem finishInit_cmd (s : State) : (s.finishInit).cmd = s.cmd := rfl
@[simp] theorem finishInit_tx (s : State) : (s.finishInit).tx = s.tx := rfl
@[simp] theorem finishInit_rx (s : State) : (s.finishInit).rx = s.rx := rfl
@[simp] theorem finishInit_bit (s : State) : (s.finishInit).bit = s.bit := rfl
@[simp] theorem finishInit_idx (s : State) : (s.finishInit).idx = s.idx := rfl
@[simp] theorem finishInit_buf (s : State) : (s.finishInit).buf = s.buf := rfl
@[simp] theorem finishInit_waitCtr (s : State) : (s.finishInit).waitCtr = s.waitCtr := rfl
@[simp] theorem finishInit_contention (s : State) : (s.finishInit).contention = s.contention := rfl
@[simp] theorem finishInit_aborted (s : State) : (s.finishInit).aborted = s.aborted := rfl
@[simp] theorem finishInit_noValueRead (s : State) : (s.finishInit).noValueRead = s.noValueRead := rfl
@[simp] theorem finishInit_trace (s : State) : (s.finishInit).trace = s.trace := rfl
@[simp] theorem finishInit_draws (s : State) : (s.finishInit).draws = s.draws := rfl
@[simp] theorem finishInit_port (s : State) : (s.finishInit).port = s.port := rfl
@[simp] theorem finishInit_rst (s : State) : (s.finishInit).rst = s.rst := rfl
@[simp] theorem finishInit_cfgInitClear (s : State) : (s.finishInit).cfgInitClear = s.cfgInitClear := rfl
@[simp] theorem finishInit_script (s : State) : (s.finishInit).script = s.script := rfl
@[simp] theorem finishInit_periph (s : State) : (s.finishInit).periph = s.periph := rfl

/-! ### noteRead -/

@[simp] theorem noteRead_params (s : State) (h : Bool) : (s.noteRead h).params = s.params := rfl
@[simp] theorem noteRead_phase (s : State) (h : Bool) : (s.noteRead h).phase = s.phase := rfl
@[simp] theorem noteRead_pos (s : State) (h : Bool) : (s.noteRead h).pos = s.pos := rfl
@[simp] theorem noteRead_initPending (s : State) (h : Bool) : (s.noteRead h).initPending = s.initPending := rfl
@[simp] theorem noteRead_initSecond (s : State) (h : Bool) : (s.noteRead h).initSecond = s.initSecond := rfl
@[simp] theorem noteRead_ce (s : State) (h : Bool) : (s.noteRead h).ce = s.ce := rfl
@[simp] theorem noteRead_clk (s : State) (h : Bool) : (s.noteRead h).clk = s.clk := rfl
@[simp] theorem noteRead_dout (s : State) (h : Bool) : (s.noteRead h).dout = s.dout := rfl
@[simp] theorem noteRead_dir (s : State) (h : Bool) : (s.noteRead h).dir = s.dir := rfl
@[simp] theorem noteRead_rspValid (s : State) (h : Bool) : (s.noteRead h).rspValid = s.rspValid := rfl
@[simp] theorem noteRead_rspStatus (s : State) (h : Bool) : (s.noteRead h).rspStatus = s.rspStatus := rfl
@[simp] theorem noteRead_rspRdata (s : State) (h : Bool) : (s.noteRead h).rspRdata = s.rspRdata := rfl
@[simp] theorem noteRead_rspRbuf (s : State) (h : Bool) : (s.noteRead h).rspRbuf = s.rspRbuf := rfl
@[simp] theorem noteRead_op (s : State) (h : Bool) : (s.noteRead h).op = s.op := rfl
@[simp] theorem noteRead_cmd (s : State) (h : Bool) : (s.noteRead h).cmd = s.cmd := rfl
@[simp] theorem noteRead_tx (s : State) (h : Bool) : (s.noteRead h).tx = s.tx := rfl
@[simp] theorem noteRead_rx (s : State) (h : Bool) : (s.noteRead h).rx = s.rx := rfl
@[simp] theorem noteRead_bit (s : State) (h : Bool) : (s.noteRead h).bit = s.bit := rfl
@[simp] theorem noteRead_idx (s : State) (h : Bool) : (s.noteRead h).idx = s.idx := rfl
@[simp] theorem noteRead_buf (s : State) (h : Bool) : (s.noteRead h).buf = s.buf := rfl
@[simp] theorem noteRead_waitCtr (s : State) (h : Bool) : (s.noteRead h).waitCtr = s.waitCtr := rfl
@[simp] theorem noteRead_contention (s : State) (h : Bool) : (s.noteRead h).contention = s.contention := rfl
@[simp] theorem noteRead_aborted (s : State) (h : Bool) : (s.noteRead h).aborted = s.aborted := rfl
@[simp] theorem noteRead_noValueRead (s : State) (h : Bool) : (s.noteRead h).noValueRead = (s.noValueRead || !h) := rfl
@[simp] theorem noteRead_trace (s : State) (h : Bool) : (s.noteRead h).trace = s.trace := rfl
@[simp] theorem noteRead_draws (s : State) (h : Bool) : (s.noteRead h).draws = s.draws := rfl
@[simp] theorem noteRead_port (s : State) (h : Bool) : (s.noteRead h).port = s.port := rfl
@[simp] theorem noteRead_rst (s : State) (h : Bool) : (s.noteRead h).rst = s.rst := rfl
@[simp] theorem noteRead_cfgInitClear (s : State) (h : Bool) : (s.noteRead h).cfgInitClear = s.cfgInitClear := rfl
@[simp] theorem noteRead_script (s : State) (h : Bool) : (s.noteRead h).script = s.script := rfl
@[simp] theorem noteRead_periph (s : State) (h : Bool) : (s.noteRead h).periph = s.periph := rfl

/-! ### advance -/

@[simp] theorem advance_params (s : State) : (s.advance).params = s.params := rfl
@[simp] theorem advance_phase (s : State) : (s.advance).phase = s.phase := rfl
@[simp] theorem advance_pos (s : State) : (s.advance).pos = s.pos + 1 := rfl
@[simp] theorem advance_initPending (s : State) : (s.advance).initPending = s.initPending := rfl
@[simp] theorem advance_initSecond (s : State) : (s.advance).initSecond = s.initSecond := rfl
@[simp] theorem advance_ce (s : State) : (s.advance).ce = s.ce := rfl
@[simp] theorem advance_clk (s : State) : (s.advance).clk = s.clk := rfl
@[simp] theorem advance_dout (s : State) : (s.advance).dout = s.dout := rfl
@[simp] theorem advance_dir (s : State) : (s.advance).dir = s.dir := rfl
@[simp] theorem advance_rspValid (s : State) : (s.advance).rspValid = s.rspValid := rfl
@[simp] theorem advance_rspStatus (s : State) : (s.advance).rspStatus = s.rspStatus := rfl
@[simp] theorem advance_rspRdata (s : State) : (s.advance).rspRdata = s.rspRdata := rfl
@[simp] theorem advance_rspRbuf (s : State) : (s.advance).rspRbuf = s.rspRbuf := rfl
@[simp] theorem advance_op (s : State) : (s.advance).op = s.op := rfl
@[simp] theorem advance_cmd (s : State) : (s.advance).cmd = s.cmd := rfl
@[simp] theorem advance_tx (s : State) : (s.advance).tx = s.tx := rfl
@[simp] theorem advance_rx (s : State) : (s.advance).rx = s.rx := rfl
@[simp] theorem advance_bit (s : State) : (s.advance).bit = s.bit := rfl
@[simp] theorem advance_idx (s : State) : (s.advance).idx = s.idx := rfl
@[simp] theorem advance_buf (s : State) : (s.advance).buf = s.buf := rfl
@[simp] theorem advance_waitCtr (s : State) : (s.advance).waitCtr = s.waitCtr := rfl
@[simp] theorem advance_contention (s : State) : (s.advance).contention = s.contention := rfl
@[simp] theorem advance_aborted (s : State) : (s.advance).aborted = s.aborted := rfl
@[simp] theorem advance_noValueRead (s : State) : (s.advance).noValueRead = s.noValueRead := rfl
@[simp] theorem advance_trace (s : State) : (s.advance).trace = s.trace := rfl
@[simp] theorem advance_draws (s : State) : (s.advance).draws = s.draws := rfl
@[simp] theorem advance_port (s : State) : (s.advance).port = s.port := rfl
@[simp] theorem advance_rst (s : State) : (s.advance).rst = s.rst := rfl
@[simp] theorem advance_cfgInitClear (s : State) : (s.advance).cfgInitClear = s.cfgInitClear := rfl
@[simp] theorem advance_script (s : State) : (s.advance).script = s.script := rfl
@[simp] theorem advance_periph (s : State) : (s.advance).periph = s.periph := rfl

/-! ### mark -/

@[simp] theorem mark_params (s : State) (e : Entry) : (e.mark s).params = s.params := rfl
@[simp] theorem mark_phase (s : State) (e : Entry) : (e.mark s).phase = e.phase := rfl
@[simp] theorem mark_pos (s : State) (e : Entry) : (e.mark s).pos = s.pos := rfl
@[simp] theorem mark_initPending (s : State) (e : Entry) : (e.mark s).initPending = s.initPending := rfl
@[simp] theorem mark_initSecond (s : State) (e : Entry) : (e.mark s).initSecond = s.initSecond := rfl
@[simp] theorem mark_ce (s : State) (e : Entry) : (e.mark s).ce = s.ce := rfl
@[simp] theorem mark_clk (s : State) (e : Entry) : (e.mark s).clk = s.clk := rfl
@[simp] theorem mark_dout (s : State) (e : Entry) : (e.mark s).dout = s.dout := rfl
@[simp] theorem mark_dir (s : State) (e : Entry) : (e.mark s).dir = s.dir := rfl
@[simp] theorem mark_rspValid (s : State) (e : Entry) : (e.mark s).rspValid = s.rspValid := rfl
@[simp] theorem mark_rspStatus (s : State) (e : Entry) : (e.mark s).rspStatus = s.rspStatus := rfl
@[simp] theorem mark_rspRdata (s : State) (e : Entry) : (e.mark s).rspRdata = s.rspRdata := rfl
@[simp] theorem mark_rspRbuf (s : State) (e : Entry) : (e.mark s).rspRbuf = s.rspRbuf := rfl
@[simp] theorem mark_op (s : State) (e : Entry) : (e.mark s).op = s.op := rfl
@[simp] theorem mark_cmd (s : State) (e : Entry) : (e.mark s).cmd = s.cmd := rfl
@[simp] theorem mark_tx (s : State) (e : Entry) : (e.mark s).tx = s.tx := rfl
@[simp] theorem mark_rx (s : State) (e : Entry) : (e.mark s).rx = s.rx := rfl
@[simp] theorem mark_bit (s : State) (e : Entry) : (e.mark s).bit = (match e.bit with | none => s.bit | some i => some i) := rfl
@[simp] theorem mark_idx (s : State) (e : Entry) : (e.mark s).idx = (match e.idx with | none => s.idx | some k => some k) := rfl
@[simp] theorem mark_buf (s : State) (e : Entry) : (e.mark s).buf = s.buf := rfl
@[simp] theorem mark_waitCtr (s : State) (e : Entry) : (e.mark s).waitCtr = s.waitCtr := rfl
@[simp] theorem mark_contention (s : State) (e : Entry) : (e.mark s).contention = s.contention := rfl
@[simp] theorem mark_aborted (s : State) (e : Entry) : (e.mark s).aborted = s.aborted := rfl
@[simp] theorem mark_noValueRead (s : State) (e : Entry) : (e.mark s).noValueRead = s.noValueRead := rfl
@[simp] theorem mark_trace (s : State) (e : Entry) : (e.mark s).trace = s.trace := rfl
@[simp] theorem mark_draws (s : State) (e : Entry) : (e.mark s).draws = s.draws := rfl
@[simp] theorem mark_port (s : State) (e : Entry) : (e.mark s).port = s.port := rfl
@[simp] theorem mark_rst (s : State) (e : Entry) : (e.mark s).rst = s.rst := rfl
@[simp] theorem mark_cfgInitClear (s : State) (e : Entry) : (e.mark s).cfgInitClear = s.cfgInitClear := rfl
@[simp] theorem mark_script (s : State) (e : Entry) : (e.mark s).script = s.script := rfl
@[simp] theorem mark_periph (s : State) (e : Entry) : (e.mark s).periph = s.periph := rfl

/-! ### takeReset -/

@[simp] theorem takeReset_params (s : State) : (s.takeReset).params = s.params := rfl
@[simp] theorem takeReset_phase (s : State) : (s.takeReset).phase = .idle := rfl
@[simp] theorem takeReset_pos (s : State) : (s.takeReset).pos = 0 := rfl
@[simp] theorem takeReset_initPending (s : State) : (s.takeReset).initPending = s.cfgInitClear := rfl
@[simp] theorem takeReset_initSecond (s : State) : (s.takeReset).initSecond = false := rfl
@[simp] theorem takeReset_ce (s : State) : (s.takeReset).ce = false := rfl
@[simp] theorem takeReset_clk (s : State) : (s.takeReset).clk = false := rfl
@[simp] theorem takeReset_dout (s : State) : (s.takeReset).dout = false := rfl
@[simp] theorem takeReset_dir (s : State) : (s.takeReset).dir = .in := rfl
@[simp] theorem takeReset_rspValid (s : State) : (s.takeReset).rspValid = false := rfl
@[simp] theorem takeReset_rspStatus (s : State) : (s.takeReset).rspStatus = none := rfl
@[simp] theorem takeReset_rspRdata (s : State) : (s.takeReset).rspRdata = none := rfl
@[simp] theorem takeReset_rspRbuf (s : State) : (s.takeReset).rspRbuf = [] := rfl
@[simp] theorem takeReset_op (s : State) : (s.takeReset).op = none := rfl
@[simp] theorem takeReset_cmd (s : State) : (s.takeReset).cmd = none := rfl
@[simp] theorem takeReset_tx (s : State) : (s.takeReset).tx = none := rfl
@[simp] theorem takeReset_rx (s : State) : (s.takeReset).rx = [] := rfl
@[simp] theorem takeReset_bit (s : State) : (s.takeReset).bit = none := rfl
@[simp] theorem takeReset_idx (s : State) : (s.takeReset).idx = none := rfl
@[simp] theorem takeReset_buf (s : State) : (s.takeReset).buf = [] := rfl
@[simp] theorem takeReset_waitCtr (s : State) : (s.takeReset).waitCtr = none := rfl
@[simp] theorem takeReset_contention (s : State) : (s.takeReset).contention = s.contention := rfl
@[simp] theorem takeReset_aborted (s : State) : (s.takeReset).aborted = (s.aborted || s.phase != .idle) := rfl
@[simp] theorem takeReset_noValueRead (s : State) : (s.takeReset).noValueRead = s.noValueRead := rfl
@[simp] theorem takeReset_trace (s : State) : (s.takeReset).trace = s.trace := rfl
@[simp] theorem takeReset_draws (s : State) : (s.takeReset).draws = s.draws + 1 := rfl
@[simp] theorem takeReset_port (s : State) : (s.takeReset).port = s.port := rfl
@[simp] theorem takeReset_rst (s : State) : (s.takeReset).rst = s.rst := rfl
@[simp] theorem takeReset_cfgInitClear (s : State) : (s.takeReset).cfgInitClear = s.cfgInitClear := rfl
@[simp] theorem takeReset_script (s : State) : (s.takeReset).script = s.script := rfl
@[simp] theorem takeReset_periph (s : State) : (s.takeReset).periph = s.periph.atReset s.ce (s.phase != .idle) s.draws := rfl

/-! ### the peripheral: put -/

@[simp] theorem periph_put_kind (p : Periph) (a : Nat) (v : Byte) : (p.put a v).kind = p.kind := rfl
@[simp] theorem periph_put_store (p : Periph) (a : Nat) (v : Byte) : (p.put a v).store = Cells.write p.store a v := rfl
@[simp] theorem periph_put_epoch (p : Periph) (a : Nat) (v : Byte) : (p.put a v).epoch = p.epoch := rfl
@[simp] theorem periph_put_txn (p : Periph) (a : Nat) (v : Byte) : (p.put a v).txn = p.txn := rfl
@[simp] theorem periph_put_mode (p : Periph) (a : Nat) (v : Byte) : (p.put a v).mode = p.mode := rfl
@[simp] theorem periph_put_nbits (p : Periph) (a : Nat) (v : Byte) : (p.put a v).nbits = p.nbits := rfl
@[simp] theorem periph_put_shift (p : Periph) (a : Nat) (v : Byte) : (p.put a v).shift = p.shift := rfl
@[simp] theorem periph_put_rc (p : Periph) (a : Nat) (v : Byte) : (p.put a v).rc = p.rc := rfl
@[simp] theorem periph_put_burst (p : Periph) (a : Nat) (v : Byte) : (p.put a v).burst = p.burst := rfl
@[simp] theorem periph_put_ptr (p : Periph) (a : Nat) (v : Byte) : (p.put a v).ptr = p.ptr := rfl
@[simp] theorem periph_put_drive (p : Periph) (a : Nat) (v : Byte) : (p.put a v).drive = p.drive := rfl
@[simp] theorem periph_put_driveBit (p : Periph) (a : Nat) (v : Byte) : (p.put a v).driveBit = p.driveBit := rfl
@[simp] theorem periph_put_snapshot (p : Periph) (a : Nat) (v : Byte) : (p.put a v).snapshot = p.snapshot := rfl
@[simp] theorem periph_put_staged (p : Periph) (a : Nat) (v : Byte) : (p.put a v).staged = p.staged := rfl

/-! ### the peripheral: shiftIn -/

@[simp] theorem periph_shiftIn_kind (p : Periph) (b : Bool) : (p.shiftIn b).kind = p.kind := rfl
@[simp] theorem periph_shiftIn_store (p : Periph) (b : Bool) : (p.shiftIn b).store = p.store := rfl
@[simp] theorem periph_shiftIn_epoch (p : Periph) (b : Bool) : (p.shiftIn b).epoch = p.epoch := rfl
@[simp] theorem periph_shiftIn_txn (p : Periph) (b : Bool) : (p.shiftIn b).txn = p.txn := rfl
@[simp] theorem periph_shiftIn_mode (p : Periph) (b : Bool) : (p.shiftIn b).mode = p.mode := rfl
@[simp] theorem periph_shiftIn_nbits (p : Periph) (b : Bool) : (p.shiftIn b).nbits = p.nbits + 1 := rfl
@[simp] theorem periph_shiftIn_shift (p : Periph) (b : Bool) : (p.shiftIn b).shift = setBit p.shift p.nbits b := rfl
@[simp] theorem periph_shiftIn_rc (p : Periph) (b : Bool) : (p.shiftIn b).rc = p.rc := rfl
@[simp] theorem periph_shiftIn_burst (p : Periph) (b : Bool) : (p.shiftIn b).burst = p.burst := rfl
@[simp] theorem periph_shiftIn_ptr (p : Periph) (b : Bool) : (p.shiftIn b).ptr = p.ptr := rfl
@[simp] theorem periph_shiftIn_drive (p : Periph) (b : Bool) : (p.shiftIn b).drive = p.drive := rfl
@[simp] theorem periph_shiftIn_driveBit (p : Periph) (b : Bool) : (p.shiftIn b).driveBit = p.driveBit := rfl
@[simp] theorem periph_shiftIn_snapshot (p : Periph) (b : Bool) : (p.shiftIn b).snapshot = p.snapshot := rfl
@[simp] theorem periph_shiftIn_staged (p : Periph) (b : Bool) : (p.shiftIn b).staged = p.staged := rfl

/-! ### the peripheral: takeCommand -/

@[simp] theorem periph_takeCommand_kind (p : Periph) (r : Bool) (i : Nat) (d : Bool) : (p.takeCommand r i d).kind = p.kind := rfl
@[simp] theorem periph_takeCommand_store (p : Periph) (r : Bool) (i : Nat) (d : Bool) : (p.takeCommand r i d).store = p.store := rfl
@[simp] theorem periph_takeCommand_epoch (p : Periph) (r : Bool) (i : Nat) (d : Bool) : (p.takeCommand r i d).epoch = p.epoch := rfl
@[simp] theorem periph_takeCommand_txn (p : Periph) (r : Bool) (i : Nat) (d : Bool) : (p.takeCommand r i d).txn = p.txn := rfl
@[simp] theorem periph_takeCommand_mode (p : Periph) (r : Bool) (i : Nat) (d : Bool) : (p.takeCommand r i d).mode = (if d then .rdata else .wdata) := rfl
@[simp] theorem periph_takeCommand_nbits (p : Periph) (r : Bool) (i : Nat) (d : Bool) : (p.takeCommand r i d).nbits = 0 := rfl
@[simp] theorem periph_takeCommand_shift (p : Periph) (r : Bool) (i : Nat) (d : Bool) : (p.takeCommand r i d).shift = p.shift := rfl
@[simp] theorem periph_takeCommand_rc (p : Periph) (r : Bool) (i : Nat) (d : Bool) : (p.takeCommand r i d).rc = r := rfl
@[simp] theorem periph_takeCommand_burst (p : Periph) (r : Bool) (i : Nat) (d : Bool) : (p.takeCommand r i d).burst = (i == 31) := rfl
@[simp] theorem periph_takeCommand_ptr (p : Periph) (r : Bool) (i : Nat) (d : Bool) : (p.takeCommand r i d).ptr = (if i = 31 then 0 else i) := rfl
@[simp] theorem periph_takeCommand_drive (p : Periph) (r : Bool) (i : Nat) (d : Bool) : (p.takeCommand r i d).drive = p.drive := rfl
@[simp] theorem periph_takeCommand_driveBit (p : Periph) (r : Bool) (i : Nat) (d : Bool) : (p.takeCommand r i d).driveBit = p.driveBit := rfl
@[simp] theorem periph_takeCommand_snapshot (p : Periph) (r : Bool) (i : Nat) (d : Bool) : (p.takeCommand r i d).snapshot = (if p.kind == .chip && d && !r && i == 31 then p.clockSnapshot else p.snapshot) := rfl
@[simp] theorem periph_takeCommand_staged (p : Periph) (r : Bool) (i : Nat) (d : Bool) : (p.takeCommand r i d).staged = p.staged := rfl

/-! ### the peripheral: ignoreCommand -/

@[simp] theorem periph_ignoreCommand_kind (p : Periph) : (p.ignoreCommand).kind = p.kind := rfl
@[simp] theorem periph_ignoreCommand_store (p : Periph) : (p.ignoreCommand).store = p.store := rfl
@[simp] theorem periph_ignoreCommand_epoch (p : Periph) : (p.ignoreCommand).epoch = p.epoch := rfl
@[simp] theorem periph_ignoreCommand_txn (p : Periph) : (p.ignoreCommand).txn = p.txn := rfl
@[simp] theorem periph_ignoreCommand_mode (p : Periph) : (p.ignoreCommand).mode = .ignore := rfl
@[simp] theorem periph_ignoreCommand_nbits (p : Periph) : (p.ignoreCommand).nbits = 0 := rfl
@[simp] theorem periph_ignoreCommand_shift (p : Periph) : (p.ignoreCommand).shift = p.shift := rfl
@[simp] theorem periph_ignoreCommand_rc (p : Periph) : (p.ignoreCommand).rc = p.rc := rfl
@[simp] theorem periph_ignoreCommand_burst (p : Periph) : (p.ignoreCommand).burst = p.burst := rfl
@[simp] theorem periph_ignoreCommand_ptr (p : Periph) : (p.ignoreCommand).ptr = p.ptr := rfl
@[simp] theorem periph_ignoreCommand_drive (p : Periph) : (p.ignoreCommand).drive = p.drive := rfl
@[simp] theorem periph_ignoreCommand_driveBit (p : Periph) : (p.ignoreCommand).driveBit = p.driveBit := rfl
@[simp] theorem periph_ignoreCommand_snapshot (p : Periph) : (p.ignoreCommand).snapshot = p.snapshot := rfl
@[simp] theorem periph_ignoreCommand_staged (p : Periph) : (p.ignoreCommand).staged = p.staged := rfl

end Sys2Proof.Machine
end

