-- ==== Sys2Proof/Laws/Ops.lean ====
section
/-! SUPPORT. For each shared operation one lemma that says once everything it can do. -/

namespace Sys2Proof.Machine

open Sys2Proof

/-! ### Outcomes -/

/-- `andThen` answers a next state iff both parts do. -/
theorem andThen_eq_next {o : Outcome} {f : State → Outcome} {t : State} :
    andThen o f = .next t ↔ ∃ u, o = .next u ∧ f u = .next t := by
  cases o <;> simp [andThen]

/-- `mapNext` answers a next state iff the outcome does, and it is that state changed. -/
theorem mapNext_eq_next {o : Outcome} {f : State → State} {t : State} :
    mapNext o f = .next t ↔ ∃ u, o = .next u ∧ f u = t := by
  cases o <;> simp [mapNext, andThen]

/-! ### Requests and commands -/

/-- A request answers always: the answered state when the engine is ready, the same state when it is not. -/
theorem onRequest_cases (s t : State) :
    (s.reqReady = true ∧ onRequest s t = .next t) ∨ (s.reqReady = false ∧ onRequest s t = .next s) := by
  cases h : s.reqReady <;> simp [onRequest, h]

/-- What READ and WRITE answer with. -/
theorem acceptAt_cases (s : State) (addr : Byte) (op : HostOp) (cmd tx : Byte) :
    (validAddr s.params.regMap addr = true ∧ s.acceptAt addr op cmd tx = s.accept op cmd tx []) ∨
    (validAddr s.params.regMap addr = false ∧ s.acceptAt addr op cmd tx = s.reject .invalidAddress) := by
  cases h : validAddr s.params.regMap addr <;> simp [State.acceptAt, h]

/-- What the RAM bursts answer with. -/
theorem acceptRamBurst_cases (s : State) (op : HostOp) (cmd tx : Byte) (buf : Memory) :
    (s.params.hasRamBurst = true ∧ s.acceptRamBurst op cmd tx buf = s.accept op cmd tx buf) ∨
    (s.params.hasRamBurst = false ∧ s.acceptRamBurst op cmd tx buf = s.reject .invalidOperation) := by
  cases h : s.params.hasRamBurst <;> simp [State.acceptRamBurst, h]

/-- A command always answers: it changes the peripheral alone, or, with nothing wired up, nothing. -/
theorem takeCommand_cases (rc : Bool) (index : Nat) (isRead : Bool) (s : State) :
    (s.periph.kind = .absent ∧ takeCommand rc index isRead s = .next s) ∨
    (s.periph.kind ≠ .absent ∧
      takeCommand rc index isRead s = .next { s with periph := s.periph.takeCommand rc index isRead }) := by
  cases h : s.periph.kind <;> simp [takeCommand, h]

/-! ### The host's turn -/

/-- The host's turn touches only its own fields: the port, the reset and configuration inputs, and the script. -/
theorem hostTurn_engine (taken : Bool) (s : State) :
    ∃ port rst cfg script,
      hostTurn taken s = { s with port := port, rst := rst, cfgInitClear := cfg, script := script } := by
  unfold hostTurn
  split
  · exact ⟨_, _, _, _, rfl⟩
  · split <;> exact ⟨_, _, _, _, rfl⟩

/-- A request the host holds stays on the port until it is answered (R225). -/
theorem hostTurn_holds {s : State} (h : s.port.valid = true) (hh : s.port.held = true) :
    hostTurn false s = { s with rst := false } := by
  simp [hostTurn, h, hh]

/-- With no move left and nothing on the port, the host's turn changes nothing but the reset input. -/
theorem hostTurn_quiet {s : State} (h : s.port.valid = false) (hs : s.script = []) (b : Bool) :
    hostTurn b s = { s with rst := false } := by
  have hp : ({ s.port with valid := false } : Port) = s.port := by
    rw [← h]
  simp [hostTurn, h, hs, hp]

/-! ### Events -/

/-- An event leaves every field but the latches, `rx`, `waitCtr` and the peripheral as it was. -/
theorem applyEvent_frame (e : Event) (s : State) :
    ∃ ce clk dout dir rx waitCtr periph,
      applyEvent e s =
        { s with ce := ce, clk := clk, dout := dout, dir := dir, rx := rx, waitCtr := waitCtr, periph := periph } := by
  cases e <;> exact ⟨_, _, _, _, _, _, _, rfl⟩

/-- Emitting an event: what the event does, one more event in the trace, and the contention check. -/
theorem emit_frame (e : Event) (s : State) :
    ∃ ce clk dout dir rx waitCtr periph contention,
      emit e s =
        { s with
          ce := ce, clk := clk, dout := dout, dir := dir, rx := rx, waitCtr := waitCtr, periph := periph,
          contention := contention, trace := e :: s.trace, draws := s.draws + 1 } := by
  cases h : s.aborted <;> cases e <;>
    exact ⟨_, _, _, _, _, _, _, _, by simp only [emit, applyEvent, State.afterAbort, h]; rfl⟩

/-- Contention, once recorded, stays (R206). -/
theorem emit_contention (e : Event) (s : State) (h : s.contention = true) : (emit e s).contention = true := by
  cases ha : s.aborted <;> cases e <;> simp [emit, applyEvent, State.afterAbort, h, ha]

/-- The latches after an event without the peripheral: an abort touches the peripheral alone. -/
theorem afterAbort_frame (s : State) : ∃ periph, s.afterAbort = { s with periph := periph } := by
  unfold State.afterAbort
  split <;> exact ⟨_, rfl⟩

/-- What `deliver` does: nothing, or one byte to `rsp_rdata`, or one to `buf`; a read of a bit without value is recorded. -/
theorem deliver_cases (dest : Dest) (s : State) :
    (dest = .nowhere ∧ deliver dest s = s) ∨
    (dest = .rdata ∧ deliver dest s = { s.noteRead (assemble s.rx).isSome with rspRdata := some s.received }) ∨
    (∃ k, dest = .buf k ∧
      deliver dest s = { s.noteRead (assemble s.rx).isSome with buf := Cells.write s.buf k.val s.received }) := by
  cases dest with
  | nowhere => exact Or.inl ⟨rfl, rfl⟩
  | rdata => exact Or.inr (Or.inl ⟨rfl, rfl⟩)
  | buf k => exact Or.inr (Or.inr ⟨k, rfl, rfl⟩)

/-- What the completion does: an init write ends without a response, another operation responds. -/
theorem complete_cases (s : State) :
    (s.initPending = true ∧ s.complete = s.finishInit) ∨
    (s.initPending = false ∧ s.complete = s.respond s.rspRbuf) ∨
    (s.initPending = false ∧ ∃ n, s.complete = s.respondBytes n) := by
  unfold State.complete
  cases s.initPending
  · cases s.opInHand
    · exact Or.inr (Or.inl ⟨rfl, rfl⟩)
    · exact Or.inr (Or.inl ⟨rfl, rfl⟩)
    · exact Or.inr (Or.inr ⟨rfl, _, rfl⟩)
    · exact Or.inr (Or.inl ⟨rfl, rfl⟩)
    · exact Or.inr (Or.inr ⟨rfl, _, rfl⟩)
    · exact Or.inr (Or.inl ⟨rfl, rfl⟩)
  · exact Or.inl ⟨rfl, rfl⟩

/-- What a step of the sequencer does: a tick of the delay unit, an event, or the completion. -/
theorem sequencerStep_cases (s : State) :
    (∃ n, s.waitCtr = some (n + 1) ∧ sequencerStep s = s.tick n) ∨
    ((∀ n, s.waitCtr ≠ some (n + 1)) ∧
      ((∃ e, s.operationTrace[s.pos]? = some e ∧ sequencerStep s = performEntry e (s.noteRead s.holdsOperands)) ∨
       (s.operationTrace[s.pos]? = none ∧ sequencerStep s = (s.noteRead s.holdsOperands).complete))) := by
  have hn : (∃ e, s.operationTrace[s.pos]? = some e ∧ nextEvent s = performEntry e (s.noteRead s.holdsOperands)) ∨
      (s.operationTrace[s.pos]? = none ∧ nextEvent s = (s.noteRead s.holdsOperands).complete) := by
    unfold nextEvent
    cases s.operationTrace[s.pos]? with
    | none => exact Or.inr ⟨rfl, rfl⟩
    | some e => exact Or.inl ⟨e, rfl, rfl⟩
  unfold sequencerStep
  split
  · rename_i n hw
    exact Or.inl ⟨n, hw, rfl⟩
  · rename_i hw
    exact Or.inr ⟨by simp [hw], hn⟩
  · rename_i hw
    exact Or.inr ⟨by simp [hw], hn⟩

/-! ### The step -/

/-- What a step does: one agent's move, then the host's turn. -/
theorem step_cases {s t : State} (h : step s = .next t) :
    (s.turn = .reset ∧ t = hostTurn false s.takeReset) ∨
    (∃ i u, s.turn = .command i ∧ exec i s = .next u ∧ t = hostTurn false u) ∨
    (∃ u, s.turn = .badCommand ∧ s.badCommand = .next u ∧ t = hostTurn false u) ∨
    (s.turn = .sequencer ∧ t = hostTurn false (sequencerStep s)) ∨
    (s.turn = .init ∧ t = hostTurn false s.beginInit) ∨
    (∃ i u, s.turn = .request i ∧ exec i s = .next u ∧ t = hostTurn true u) ∨
    (s.turn = .waiting ∧ t = hostTurn false s) := by
  unfold step at h
  split at h
  · rename_i hturn
    simp only [Host.Outcome.next.injEq] at h
    exact Or.inl ⟨hturn, h.symm⟩
  · rename_i i hturn
    obtain ⟨u, hu, rfl⟩ := mapNext_eq_next.mp h
    exact Or.inr (Or.inl ⟨i, u, hturn, hu, rfl⟩)
  · rename_i hturn
    obtain ⟨u, hu, rfl⟩ := mapNext_eq_next.mp h
    exact Or.inr (Or.inr (Or.inl ⟨u, hturn, hu, rfl⟩))
  · rename_i hturn
    simp only [Host.Outcome.next.injEq] at h
    exact Or.inr (Or.inr (Or.inr (Or.inl ⟨hturn, h.symm⟩)))
  · rename_i hturn
    simp only [Host.Outcome.next.injEq] at h
    exact Or.inr (Or.inr (Or.inr (Or.inr (Or.inl ⟨hturn, h.symm⟩))))
  · rename_i i hturn
    obtain ⟨u, hu, rfl⟩ := mapNext_eq_next.mp h
    exact Or.inr (Or.inr (Or.inr (Or.inr (Or.inr (Or.inl ⟨i, u, hturn, hu, rfl⟩)))))
  · rename_i hturn
    simp only [Host.Outcome.next.injEq] at h
    exact Or.inr (Or.inr (Or.inr (Or.inr (Or.inr (Or.inr ⟨hturn, h.symm⟩)))))

/-- What each turn says of the state. -/
theorem turn_cases (s : State) :
    (s.turn = .reset ∧ s.rst = true) ∨
    (∃ i, s.turn = .command i ∧ s.rst = false ∧ (s.reqReady && s.port.valid) = false ∧ s.periph.commandReady = true ∧
      decodeCommand s.commandMap s.periph.shift = .ok i) ∨
    (∃ e, s.turn = .badCommand ∧ s.rst = false ∧ (s.reqReady && s.port.valid) = false ∧ s.periph.commandReady = true ∧
      decodeCommand s.commandMap s.periph.shift = .error e) ∨
    (s.turn = .sequencer ∧ s.rst = false ∧ s.periph.commandReady = false ∧ s.phase ≠ .idle) ∨
    (s.turn = .init ∧ s.rst = false ∧ s.periph.commandReady = false ∧ s.phase = .idle ∧ s.initPending = true) ∨
    (s.turn = .request s.port.instr ∧ s.rst = false ∧ s.reqReady = true ∧ s.port.valid = true) ∨
    (s.turn = .waiting ∧ s.rst = false ∧ s.periph.commandReady = false ∧ s.reqReady = true ∧ s.port.valid = false) := by
  unfold State.turn State.reqReady
  cases hr : s.rst
  · by_cases hp : s.phase = .idle <;> cases hi : s.initPending <;> cases hv : s.port.valid <;>
      cases hc : s.periph.commandReady <;> cases hd : decodeCommand s.commandMap s.periph.shift <;>
      simp [hp]
  · simp

/-! ### The peripheral -/

/-- Putting values in a list of registers changes the store alone. -/
theorem putAll_frame (p : Periph) (as : List Nat) (f : Nat → Byte) : ∃ m, p.putAll as f = { p with store := m } := by
  induction as generalizing p with
  | nil => exact ⟨p.store, rfl⟩
  | cons a rest ih =>
    obtain ⟨m, hm⟩ := ih (p.put a (f a))
    exact ⟨m, by rw [Periph.putAll, hm]; rfl⟩

/-- A register just put reads as the value put. -/
theorem regByte_put (p : Periph) (a b : Nat) (v : Byte) :
    (p.put a v).regByte b = if b = a then v else p.regByte b := by
  simp only [Periph.regByte, periph_put_store, periph_put_epoch, cells_read_write]
  split <;> simp

/-- The effect of a written byte changes the store alone. -/
theorem writeReg_frame (p : Periph) (a : Nat) (v : Byte) : ∃ m, p.writeReg a v = { p with store := m } := by
  unfold Periph.writeReg
  split
  · split <;> exact ⟨_, rfl⟩
  · exact ⟨_, rfl⟩
  · exact ⟨p.store, rfl⟩

/-- An abort leaves a peripheral of the same kind (R207). -/
@[simp] theorem scramble_kind (p : Periph) (n : Nat) : (p.scramble n).kind = p.kind := by
  unfold Periph.scramble
  split <;> simp_all

/-- A falling edge changes no register: reads have no side effect on the registers (R73). -/
theorem fall_store (p : Periph) : p.fall.store = p.store := by
  unfold Periph.fall
  split <;> try rfl
  unfold Periph.countOut Periph.advancePtr
  split <;> split <;> (try split) <;> (try split) <;> rfl

end Sys2Proof.Machine
end

