-- ==== Sys2Proof/Laws/PerInstr.lean ====
section
/-! SUPPORT. What holds of every instruction as syntax, one lemma a constructor: how many bytes its encoding has (R80, R89). -/

namespace Sys2Proof.Laws

open Sys2Proof

/-- A command is one byte (R80); a request word is three, with a burst write's payload after it (R89, R67). -/
def EncodedLength.Statement (i : Instr) : Prop := i.wellFormed = true → (encode i).length ∈ [1, 3, 11, 34]

theorem EncodedLength.read (addr wdata : Byte) : EncodedLength.Statement (.read addr wdata) := fun _ => by
  simp [encode, encodeWith, requestBytes]
theorem EncodedLength.write (addr wdata : Byte) : EncodedLength.Statement (.write addr wdata) := fun _ => by
  simp [encode, encodeWith, requestBytes]
theorem EncodedLength.burstReadClock (addr wdata : Byte) : EncodedLength.Statement (.burstReadClock addr wdata) := fun _ => by
  simp [encode, encodeWith, requestBytes]
theorem EncodedLength.burstWriteClock (addr wdata : Byte) (payload : List Byte) :
    EncodedLength.Statement (.burstWriteClock addr wdata payload) := fun h => by
  have h' : payload.length = 8 := by simpa [Instr.wellFormed, Config.clockBurstLen, Config.ramBurstLen] using h
  simp [encode, encodeWith, requestBytes, h']
theorem EncodedLength.burstReadRam (addr wdata : Byte) : EncodedLength.Statement (.burstReadRam addr wdata) := fun _ => by
  simp [encode, encodeWith, requestBytes]
theorem EncodedLength.burstWriteRam (addr wdata : Byte) (payload : List Byte) :
    EncodedLength.Statement (.burstWriteRam addr wdata payload) := fun h => by
  have h' : payload.length = 31 := by simpa [Instr.wellFormed, Config.clockBurstLen, Config.ramBurstLen] using h
  simp [encode, encodeWith, requestBytes, h']
theorem EncodedLength.reservedOp6 (addr wdata : Byte) : EncodedLength.Statement (.reservedOp6 addr wdata) := fun _ => by
  simp [encode, encodeWith, requestBytes]
theorem EncodedLength.reservedOp7 (addr wdata : Byte) : EncodedLength.Statement (.reservedOp7 addr wdata) := fun _ => by
  simp [encode, encodeWith, requestBytes]
theorem EncodedLength.cmdWriteSeconds : EncodedLength.Statement .cmdWriteSeconds := fun _ => by decide
theorem EncodedLength.cmdReadSeconds : EncodedLength.Statement .cmdReadSeconds := fun _ => by decide
theorem EncodedLength.cmdWriteMinutes : EncodedLength.Statement .cmdWriteMinutes := fun _ => by decide
theorem EncodedLength.cmdReadMinutes : EncodedLength.Statement .cmdReadMinutes := fun _ => by decide
theorem EncodedLength.cmdWriteHours : EncodedLength.Statement .cmdWriteHours := fun _ => by decide
theorem EncodedLength.cmdReadHours : EncodedLength.Statement .cmdReadHours := fun _ => by decide
theorem EncodedLength.cmdWriteDate : EncodedLength.Statement .cmdWriteDate := fun _ => by decide
theorem EncodedLength.cmdReadDate : EncodedLength.Statement .cmdReadDate := fun _ => by decide
theorem EncodedLength.cmdWriteMonth : EncodedLength.Statement .cmdWriteMonth := fun _ => by decide
theorem EncodedLength.cmdReadMonth : EncodedLength.Statement .cmdReadMonth := fun _ => by decide
theorem EncodedLength.cmdWriteWeekday : EncodedLength.Statement .cmdWriteWeekday := fun _ => by decide
theorem EncodedLength.cmdReadWeekday : EncodedLength.Statement .cmdReadWeekday := fun _ => by decide
theorem EncodedLength.cmdWriteYear : EncodedLength.Statement .cmdWriteYear := fun _ => by decide
theorem EncodedLength.cmdReadYear : EncodedLength.Statement .cmdReadYear := fun _ => by decide
theorem EncodedLength.cmdWriteControl : EncodedLength.Statement .cmdWriteControl := fun _ => by decide
theorem EncodedLength.cmdReadControl : EncodedLength.Statement .cmdReadControl := fun _ => by decide
theorem EncodedLength.cmdWriteTrickle : EncodedLength.Statement .cmdWriteTrickle := fun _ => by decide
theorem EncodedLength.cmdReadTrickle : EncodedLength.Statement .cmdReadTrickle := fun _ => by decide
theorem EncodedLength.cmdWriteRam (n : BitVec 5) : EncodedLength.Statement (.cmdWriteRam n) := fun _ => by simp [encode, encodeWith]
theorem EncodedLength.cmdReadRam (n : BitVec 5) : EncodedLength.Statement (.cmdReadRam n) := fun _ => by simp [encode, encodeWith]
theorem EncodedLength.cmdWriteClockBurst : EncodedLength.Statement .cmdWriteClockBurst := fun _ => by decide
theorem EncodedLength.cmdReadClockBurst : EncodedLength.Statement .cmdReadClockBurst := fun _ => by decide
theorem EncodedLength.cmdWriteRamBurst : EncodedLength.Statement .cmdWriteRamBurst := fun _ => by decide
theorem EncodedLength.cmdReadRamBurst : EncodedLength.Statement .cmdReadRamBurst := fun _ => by decide

end Sys2Proof.Laws
end

