-- ==== Sys2Proof/Tests/Slice0.lean ====
section
/-! SUPPORT. Tests of the model, each expected value from spec/ (95_test_vectors.md V1 to V43, program P1, and the rules named),
and for every obligation with hypotheses a theorem that shows a state and operands that meet them. -/

namespace Sys2Proof.Tests

open Sys2Proof Sys2Proof.Machine

/-! ### States the tests start from -/

/-- An engine just out of reset, with the reference responder on the lines. -/
def ready : State := { State.reset with periph := Periph.initial .responder }

/-- The next state, if there is one. -/
def nextOf (o : Outcome) : Option State :=
  match o with
  | .next s => some s
  | .fault _ => none
  | .refused _ => none

/-- What the tests look at after a request. -/
structure Seen where
  phase     : Phase
  op        : Option HostOp
  cmd       : Option Byte
  tx        : Option Byte
  rspValid  : Bool
  rspStatus : Option Status
  events    : Nat
  deriving DecidableEq, Repr

def seen (s : State) : Seen := ⟨s.phase, s.op, s.cmd, s.tx, s.rspValid, s.rspStatus, s.trace.length⟩

/-- The engine while it performs `WRITE HOURS, 0x12`, before its first event. -/
def writeInHand : State := ready.accept .write 0x84 0x12 []

/-- A peripheral that has been sent the command byte `c`. -/
def commanded (kind : DeviceKind) (c : Byte) : State :=
  { State.reset with periph := { Periph.initial kind with mode := .cmd, nbits := 8, shift := c } }

/-- What a command leaves in the peripheral. -/
structure Selected where
  mode  : PeriphMode
  rc    : Bool
  burst : Bool
  ptr   : Nat
  nbits : Nat
  deriving DecidableEq, Repr

def selected (i : Instr) : Option Selected :=
  (nextOf (exec i (commanded .responder 0x80))).map
    (fun t => ⟨t.periph.mode, t.periph.rc, t.periph.burst, t.periph.ptr, t.periph.nbits⟩)

/-- A responder whose HOURS register, index 2, holds 0x12 and that is about to send it (V12). -/
def sending : State :=
  { ready with
    ce := true, clk := true, phase := .lineReleased,
    periph := { Periph.initial .responder with store := [(2, 0x12)], mode := .rdata, ptr := 2 } }

/-- A peripheral of the given kind that waits for a data byte of the clock burst, bit `n` next. -/
def receiving (kind : DeviceKind) (rc : Bool) (n : Nat) : State :=
  { State.reset with
    ce := true, dir := .out, dout := true,
    periph := { Periph.initial kind with mode := .wdata, burst := true, rc := rc, nbits := n, store := [(7, 0x00)] } }

/-! ### Well-formed instructions -/

/-- R67, R62: an ill-formed term for each check, which the check refuses. -/
theorem test_wellFormed_refuses :
    Instr.wellFormed (.burstWriteClock 0 0 (List.replicate 7 0)) = false ∧
    Instr.wellFormed (.burstWriteClock 0 0 (List.replicate 9 0)) = false ∧
    Instr.wellFormed (.burstWriteRam 0 0 (List.replicate 30 0)) = false ∧
    Instr.wellFormed (.burstWriteRam 0 0 []) = false ∧
    Instr.wellFormed (.cmdWriteRam 31) = false ∧ Instr.wellFormed (.cmdReadRam 31) = false := by decide

theorem test_wellFormed_accepts :
    Instr.wellFormed (.burstWriteClock 0 0 (List.replicate 8 0)) = true ∧
    Instr.wellFormed (.burstWriteRam 0 0 (List.replicate 31 0)) = true ∧
    Instr.wellFormed (.cmdWriteRam 30) = true ∧ Instr.wellFormed (.cmdReadRam 0) = true := by decide

/-! ### Decoding -/

/-- V21: the request words. -/
theorem test_decode_requests :
    decodeTableWord 24 0x00428 = some (.read 0x85 0) ∧
    decodeTableWord 24 0x21C71 = some (.write 0x8E 0x43) ∧
    decodeTableWord 24 0x2AC99 = some (.write 0x93 0x55) ∧
    decodeTableWord 24 0x003F8 = some (.read 0x7F 0) ∧
    decodeTableWord 24 0x00002 = some (.burstReadClock 0 0) ∧
    decodeTableWord 24 0x00003 = some (.burstWriteClock 0 0 (List.replicate 8 0)) ∧
    decodeTableWord 24 0x00004 = some (.burstReadRam 0 0) ∧
    decodeTableWord 24 0x00005 = some (.burstWriteRam 0 0 (List.replicate 31 0)) ∧
    decodeTableWord 24 0x00006 = some (.reservedOp6 0 0) ∧
    decodeTableWord 24 0x00007 = some (.reservedOp7 0 0) := by decide

/-- R89, R90: the requests of the table's rows, whose fixed bits are `op` alone. -/
theorem test_decode_request_rows :
    (List.range 8).map (decodeTableWord 8) =
      [some (.read 0 0), some (.write 0 0), some (.burstReadClock 0 0), some (.burstWriteClock 0 0 (List.replicate 8 0)),
       some (.burstReadRam 0 0), some (.burstWriteRam 0 0 (List.replicate 31 0)), some (.reservedOp6 0 0),
       some (.reservedOp7 0 0)] := by decide

/-- R89: the fields' places, bit by bit: op [2:0] = 1, addr [10:3] = 0xC1, wdata [18:11] = 0x3C. -/
theorem test_decode_fields : decodeTableWord 24 0b00111100_11000001_001 = some (.write 0xC1 0x3C) := by decide

/-- R80, R34: the command bytes of the clock space, 1 0 AAAAA RW. -/
theorem test_decode_clock_commands :
    decodeTableWord 8 0b1_0_00000_0 = some .cmdWriteSeconds ∧ decodeTableWord 8 0b1_0_00000_1 = some .cmdReadSeconds ∧
    decodeTableWord 8 0b1_0_00001_0 = some .cmdWriteMinutes ∧ decodeTableWord 8 0b1_0_00001_1 = some .cmdReadMinutes ∧
    decodeTableWord 8 0b1_0_00010_0 = some .cmdWriteHours ∧ decodeTableWord 8 0b1_0_00010_1 = some .cmdReadHours ∧
    decodeTableWord 8 0b1_0_00011_0 = some .cmdWriteDate ∧ decodeTableWord 8 0b1_0_00011_1 = some .cmdReadDate ∧
    decodeTableWord 8 0b1_0_00100_0 = some .cmdWriteMonth ∧ decodeTableWord 8 0b1_0_00100_1 = some .cmdReadMonth ∧
    decodeTableWord 8 0b1_0_00101_0 = some .cmdWriteWeekday ∧ decodeTableWord 8 0b1_0_00101_1 = some .cmdReadWeekday ∧
    decodeTableWord 8 0b1_0_00110_0 = some .cmdWriteYear ∧ decodeTableWord 8 0b1_0_00110_1 = some .cmdReadYear ∧
    decodeTableWord 8 0b1_0_00111_0 = some .cmdWriteControl ∧ decodeTableWord 8 0b1_0_00111_1 = some .cmdReadControl ∧
    decodeTableWord 8 0b1_0_01000_0 = some .cmdWriteTrickle ∧ decodeTableWord 8 0b1_0_01000_1 = some .cmdReadTrickle := by
  decide

/-- R80, R86, V20: the command bytes of the RAM bytes and of the bursts. -/
theorem test_decode_ram_and_burst_commands :
    decodeTableWord 8 0b1_1_00000_0 = some (.cmdWriteRam 0) ∧ decodeTableWord 8 0b1_1_11110_1 = some (.cmdReadRam 30) ∧
    decodeTableWord 8 0xC5 = some (.cmdReadRam 2) ∧
    decodeTableWord 8 0b1_0_11111_0 = some .cmdWriteClockBurst ∧ decodeTableWord 8 0b1_0_11111_1 = some .cmdReadClockBurst ∧
    decodeTableWord 8 0b1_1_11111_0 = some .cmdWriteRamBurst ∧ decodeTableWord 8 0b1_1_11111_1 = some .cmdReadRamBurst := by
  decide

/-- R88, V19: bytes that name nothing. -/
theorem test_decode_refuses :
    decode [0x00] = .error (.invalidCommand 0x00) ∧ decode [0x7F] = .error (.invalidCommand 0x7F) ∧
    decodeTableWord 8 0x92 = none ∧ decodeTableWord 8 0x100 = none ∧
    decodeTableWord 8 0x93 = none ∧ decodeTableWord 8 0xBC = none ∧ decodeTableWord 8 0xBD = none ∧
    decodeTableWord 24 0x80000 = none ∧ decodeTableWord 24 0x1000000 = none := by decide

/-- A map that R34 lets replace the default one: every clock-space name moved up by one register, and the last RAM byte moved away
from its neighbours. -/
def shiftedMap : RegMap :=
  { Config.regMap with
    seconds := 0x82, minutes := 0x84, hours := 0x86, date := 0x88, month := 0x8A, weekday := 0x8C, year := 0x8E,
    control := 0x90, trickle := 0x92, ramBytes := Config.regMap.ramBytes.set 30 0xA0 }

/-- The default map keeps what R34 asks. -/
theorem default_map_wf : Config.regMap.wf = true := by decide +kernel

/-- So does the moved one. -/
theorem shifted_map_wf : shiftedMap.wf = true := by decide +kernel

/-- R34: under another map the same byte names another register, and a byte may name none. -/
theorem test_decode_with_another_map :
    { Config.regMap with trickle := 0x92 }.wf = false ∧ { Config.regMap with ramBytes := [0xC0] }.wf = false ∧
    decodeWith shiftedMap [0xA1] = .ok (.cmdReadRam 30) ∧ encodeWith shiftedMap (.cmdWriteRam 30) = [0xA0] ∧
    decodeWith shiftedMap [0x86] = .ok .cmdWriteHours ∧ decodeWith shiftedMap [0x93] = .ok .cmdReadTrickle ∧
    decodeWith shiftedMap [0x80] = .error (.invalidCommand 0x80) ∧ encodeWith shiftedMap .cmdReadControl = [0x91] := by
  decide

/-- R67: a payload of the wrong length is no instruction. -/
theorem test_decode_refuses_payload :
    decode [0x03, 0x00, 0x00, 1, 2, 3, 4, 5, 6, 7] = .error .wrongPayload ∧
    decode [0x02, 0x00, 0x00, 1] = .error .wrongPayload ∧ decode [0x02, 0x00] = .error .wrongLength := by decide

/-- V19: address validity. -/
theorem test_validAddr :
    [0x00, 0x7F, 0x80, 0x81, 0x91, 0x92, 0x93, 0xBC, 0xBD, 0xBE, 0xBF, 0xC0, 0xFD, 0xFE, 0xFF].map (validAddr Config.regMap) =
      [false, false, true, true, true, false, false, false, false, true, true, true, true, true, true] := by decide

/-- V7: address masking. -/
theorem test_forcing :
    [0x84, 0x85, 0xC0, 0xC1, 0xFF].map readCommand = [0x85, 0x85, 0xC1, 0xC1, 0xFF] ∧
    [0x84, 0x85, 0xC0, 0xC1, 0xFF].map writeCommand = [0x84, 0x84, 0xC0, 0xC0, 0xFE] := by decide

/-! ### The requests -/

theorem test_read : (nextOf (exec (.read 0x84 0x00) ready)).map seen =
    some ⟨.active, some .read, some 0x85, some 0x00, false, none, 0⟩ := by decide

/-- `READ 0x7F` (P1). -/
theorem test_read_invalid : (nextOf (exec (.read 0x7F 0x00) ready)).map seen =
    some ⟨.idle, none, none, none, true, some .invalidAddress, 0⟩ := by decide

/-- V23: the command is 0xC0. -/
theorem test_write : (nextOf (exec (.write 0xC1 0x3C) ready)).map seen =
    some ⟨.active, some .write, some 0xC0, some 0x3C, false, none, 0⟩ := by decide

/-- V39. -/
theorem test_write_invalid : (nextOf (exec (.write 0x93 0x55) ready)).map seen =
    some ⟨.idle, none, none, none, true, some .invalidAddress, 0⟩ := by decide

/-- V41: `addr` 0x00 is ignored. -/
theorem test_burstReadClock : (nextOf (exec (.burstReadClock 0x00 0x00) ready)).map seen =
    some ⟨.active, some .burstReadClock, some 0xBF, some 0x00, false, none, 0⟩ := by decide

/-- R25: the payload's bytes go to `buf`. -/
theorem test_burstWriteClock :
    (nextOf (exec (.burstWriteClock 0x00 0x00 [0x00, 0x03, 0x13, 0x11, 0x09, 0x01, 0x19, 0x7F]) ready)).map
      (fun t => (t.cmd, Cells.read t.buf 2, Cells.read t.buf 7, Cells.read t.buf 8)) =
    some (some 0xBE, some 0x13, some 0x7F, none) := by decide

theorem test_burstReadRam : (nextOf (exec (.burstReadRam 0x00 0x00) ready)).map seen =
    some ⟨.active, some .burstReadRam, some 0xFF, some 0x00, false, none, 0⟩ := by decide

/-- V30: without RAM bursts, code 4 is reserved. -/
theorem test_burstReadRam_absent :
    (nextOf (exec (.burstReadRam 0x00 0x00) { ready with params := { Params.default with hasRamBurst := false } })).map seen =
    some ⟨.idle, none, none, none, true, some .invalidOperation, 0⟩ := by decide

theorem test_burstWriteRam :
    (nextOf (exec (.burstWriteRam 0x00 0x00 (List.replicate 31 0xA5)) ready)).map
      (fun t => (t.cmd, Cells.read t.buf 0, Cells.read t.buf 30, Cells.read t.buf 31)) =
    some (some 0xFE, some 0xA5, some 0xA5, none) := by decide

theorem test_reservedOp6 : (nextOf (exec (.reservedOp6 0x84 0x00) ready)).map seen =
    some ⟨.idle, none, none, none, true, some .invalidOperation, 0⟩ := by decide

/-- V40: the operation is checked before the address. -/
theorem test_reservedOp7 : (nextOf (exec (.reservedOp7 0x00 0x00) ready)).map seen =
    some ⟨.idle, none, none, none, true, some .invalidOperation, 0⟩ := by decide

/-- R25: busy, the engine takes no request. -/
theorem test_busy : (nextOf (exec (.read 0x84 0x00) writeInHand)).map seen = some (seen writeInHand) := by decide

/-- The same from the eight bits the table's row fixes, and a burst that begins. -/
theorem test_step_runs_placed_row :
    (nextOf (step (State.reset.withFetchWord 8 0x07))).map seen =
      some ⟨.idle, none, none, none, true, some .invalidOperation, 0⟩ ∧
    (nextOf (step (State.reset.withFetchWord 8 0x02))).map seen =
      some ⟨.active, some .burstReadClock, some 0xBF, some 0x00, false, none, 0⟩ := by decide

/-- R225: a request shown for one step and not taken may be withdrawn; a held one stays. -/
theorem test_withdraw :
    (nextOf (step { writeInHand with port := ⟨true, false, Request.blank⟩ })).map (fun t => t.port.valid) = some false ∧
    (nextOf (step { writeInHand with port := ⟨true, true, Request.blank⟩ })).map (fun t => t.port.valid) = some true ∧
    (nextOf (step { writeInHand with port := ⟨true, false, Request.blank⟩, script := [.reset true] })).map
      (fun t => (t.rst, t.cfgInitClear)) = some (true, true) := by decide

/-- V40's word, placed on the port of an engine after reset, and the step that runs it. -/
theorem test_step_runs_placed_request : (nextOf (step (State.reset.withFetchWord 24 0x00007))).map seen =
    some ⟨.idle, none, none, none, true, some .invalidOperation, 0⟩ := by decide

/-- R25: a request shown for one step to a ready engine is answered in that step, whatever an abort has left the peripheral at. -/
theorem test_request_comes_before_command :
    (nextOf (step { commanded .chip 0x8E with aborted := true, port := ⟨true, false, ⟨7, 0, 0, []⟩⟩ })).map
      (fun t => (t.rspValid, t.rspStatus, t.port.valid)) = some (true, some .invalidOperation, false) := by decide

/-- A command byte in the chip's shift register, and the step that runs it. -/
theorem test_step_runs_placed_command :
    (nextOf (step (State.reset.withFetchWord 8 0xC5))).map (fun t => (t.periph.mode, t.periph.rc, t.periph.ptr)) =
    some (.rdata, true, 2) := by decide

/-! ### The commands (R34, R86, R216, R222) -/

theorem test_commands_of_the_clock_space :
    [Instr.cmdWriteSeconds, .cmdWriteMinutes, .cmdWriteHours, .cmdWriteDate, .cmdWriteMonth, .cmdWriteWeekday, .cmdWriteYear,
      .cmdWriteControl, .cmdWriteTrickle].map selected =
      (List.range 9).map (fun k => some ⟨.wdata, false, false, k, 0⟩) ∧
    [Instr.cmdReadSeconds, .cmdReadMinutes, .cmdReadHours, .cmdReadDate, .cmdReadMonth, .cmdReadWeekday, .cmdReadYear,
      .cmdReadControl, .cmdReadTrickle].map selected =
      (List.range 9).map (fun k => some ⟨.rdata, false, false, k, 0⟩) := by decide

theorem test_commands_of_the_ram_and_the_bursts :
    selected (.cmdWriteRam 30) = some ⟨.wdata, true, false, 30, 0⟩ ∧
    selected (.cmdReadRam 2) = some ⟨.rdata, true, false, 2, 0⟩ ∧
    selected .cmdWriteClockBurst = some ⟨.wdata, false, true, 0, 0⟩ ∧
    selected .cmdReadClockBurst = some ⟨.rdata, false, true, 0, 0⟩ ∧
    selected .cmdWriteRamBurst = some ⟨.wdata, true, true, 0, 0⟩ ∧
    selected .cmdReadRamBurst = some ⟨.rdata, true, true, 0, 0⟩ := by decide

/-- R222: the responder ignores the transaction of a byte that names nothing. R218: for the chip it is undefined. -/
theorem test_bad_command :
    (nextOf (step (commanded .responder 0x93))).map (fun t => t.periph.mode) = some .ignore ∧
    (nextOf (step (commanded .chip 0x93))).isNone = true := by decide

/-! ### Traces -/

/-- V1: the levels of 0xB0 at the eight rising edges, and the latches at the end. -/
theorem test_writeBits_levels :
    risingLevels ⟨true, false, false, .out⟩ (eventsOf (writeBits .writing none 0xB0 false)) =
      [false, false, false, false, true, true, false, true] ∧
    (Levels.mk true false false .out).afterAll (eventsOf (writeBits .writing none 0xB0 false)) = ⟨true, false, true, .out⟩ ∧
    (writeBits .writing none 0xB0 false).length = 48 := by decide

/-- V16: the release form is one event shorter and ends with the hand-off. -/
theorem test_writeBits_release :
    (writeBits .addressing none 0xFF true).length = 47 ∧
    (eventsOf (writeBits .addressing none 0xFF true)).drop 44 = [.clk true, .wait .dh, .dir .in] := by decide

/-- V17: the two entry states of `read_bits`. -/
theorem test_readBits_entry :
    (readBits true none .rdata).length = 39 ∧ (readBits false none .rdata).length = 40 ∧
    (eventsOf (readBits true none .rdata)).head? = some (.wait .rh) ∧
    (eventsOf (readBits false none .rdata)).head? = some (.clk true) := by decide

/-- V12: `READ 0x84`, the pieces the vector spells out. -/
theorem test_readTrace :
    (eventsOf (readTrace 0x85)).take 9 =
      [.dir .out, .ce true, .wait .ceSu, .dout true, .wait .dsu, .clk true, .wait .dh, .clk false, .wait .clr] ∧
    ((eventsOf (readTrace 0x85)).drop 45).take 10 =
      [.dout true, .wait .dsu, .clk true, .wait .dh, .dir .in, .wait .rh, .clk false, .wait .rl, .sample 0, .clk true] ∧
    (eventsOf (readTrace 0x85)).drop 89 = [.ce false, .wait .ceRec] ∧
    [0, 3, 48, 49, 50, 88, 89].map (fun k => ((readTrace 0x85)[k]?).map (fun e => e.phase)) =
      [some .active, some .addressing, some .addressing, some .lineReleased, some .reading, some .reading, some .closing] := by
  decide

/-- V23: the levels of `WRITE 0xC1, 0x3C`. -/
theorem test_writeTrace_levels :
    risingLevels ⟨false, false, false, .in⟩ (eventsOf (writeTrace 0xC0 0x3C)) =
      [false, false, false, false, false, false, true, true, false, false, true, true, true, true, false, false] := by decide

/-- R254: the least waits of a READ and of a WRITE, 47 and 56 microseconds. -/
theorem test_wait_totals :
    waitTime Params.default (eventsOf (readTrace 0x85)) = 47 ∧
    waitTime Params.default (eventsOf (writeTrace 0x84 0x12)) = 56 := by decide

/-! ### Events, faults and reset -/

/-- V12: at the first falling edge the responder drives bit 0 of 0x12; at the second, bit 1. -/
theorem test_responder_drives :
    ((emit (.clk false) sending).periph.drive, (emit (.clk false) sending).periph.driveBit) = (true, false) ∧
    (emitAll [.clk false, .clk true, .clk false] sending).periph.driveBit = true := by decide

/-- V42: the clock falls before the hand-off. -/
theorem test_contention :
    (emit (.clk false) { sending with dir := .out }).contention = true ∧
    (emit (.clk false) sending).contention = false := by decide

/-- V43: reset in the middle of a write. -/
theorem test_abort :
    (nextOf (step { writeInHand with rst := true, phase := .writing, pos := 60, ce := true, clk := true, dir := .out })).map
      (fun t => (t.levels, t.aborted, t.phase)) =
    some (⟨false, false, false, .in⟩, true, .idle) := by decide

/-- R46, U23: an operation in hand whose `tx` holds no value goes on, and the model fault is recorded. -/
theorem test_no_value_read :
    (nextOf (step { writeInHand with tx := none })).map (fun t => (t.noValueRead, t.phase, t.trace)) =
    some (true, .active, [.dir .out]) := by decide

/-- V31: with `cfg_init_clear` = 1 the first init write is 0x8E with 0x00, and the engine is not ready. -/
theorem test_init :
    ((nextOf (step { ready with rst := true, cfgInitClear := true })).bind (fun t => nextOf (step t))).map
      (fun t => (t.reqReady, t.op, t.cmd, t.tx, t.rspValid)) =
    some (false, some .write, some 0x8E, some 0x00, false) := by decide

/-- V32: with `cfg_init_clear` = 0 the engine is ready. -/
theorem test_no_init :
    (nextOf (step { ready with rst := true, cfgInitClear := false })).map (fun t => (t.reqReady, t.trace.length)) =
    some (true, 0) := by decide

/-- R71, R72: with WP set the chip ignores a write to SECONDS, and takes one to CONTROL. -/
theorem test_write_protect :
    let p := { Periph.initial .chip with store := [(0, 0x27), (7, 0x80)] }
    (p.writeReg 0 0x55).store = [(0, 0x27), (7, 0x80)] ∧ p.wp = true ∧
    Cells.read (p.writeReg 7 0x00).store 0 = some 0x27 := by decide

/-- R72: the write of 0x00 to CONTROL clears WP, and the one of 0x80 keeps it. -/
theorem test_write_protect_bit :
    let p := { Periph.initial .chip with store := [(7, 0x80)] }
    (p.writeReg 7 0x00).wp = false ∧ (p.writeReg 7 0x80).wp = true := by
  simp [Periph.writeReg, Periph.controlByte, Periph.wp, Periph.regByte, Periph.put, Periph.initial, Cells.read, Cells.write,
    controlCell]

/-! ### The record codec -/

/-- V33. -/
theorem test_bcd :
    [0, 9, 10, 34, 59, 99, 100].map bcdEnc =
      [some 0x00, some 0x09, some 0x10, some 0x34, some 0x59, some 0x99, none] ∧
    [0x1A, 0xFF, 0x59].map bcdDec = [20, 165, 59] := by decide

/-- V34. -/
theorem test_accessors :
    let r : ClockRecord := ⟨0xC5, 0x83, 0x13, 0xF1, 0xF2, 0xFF, 0x99, 0x43⟩
    secondsOf r = 45 ∧ clockHaltOf r = true ∧ minutesOf r = 3 ∧ dayOfMonthOf r = 31 ∧ monthOf r = 12 ∧
    dayOfWeekOf r = 7 ∧ yearOf r = 99 ∧ writeProtectOf r = false ∧ writeProtectOf { r with byte7 := 0xC3 } = true := by decide

/-- V35. -/
theorem test_hours :
    [0x13, 0x23, 0x40, 0xB1, 0x92, 0xF2].map (fun b => hourOf { freshRecord with byte2 := b }) =
      [.hour24 13, .hour24 23, .hour24 0, .hour12 11 .pm, .hour12 12 .am, .hour12 12 .pm] := by decide

/-- V36. -/
theorem test_setters :
    setMinutes 0x80 59 = some 0xD9 ∧ setHour 0x40 (.hour12 12 .pm) = some 0xF2 ∧ setHour 0xC0 (.hour24 0) = some 0x40 ∧
    setDayOfMonth 0xC0 31 = some 0xF1 ∧ setMonth 0xE0 12 = some 0xF2 ∧ setDayOfWeek 0xF8 7 = some 0xFF ∧
    setWriteProtect 0xC3 false = 0x43 ∧ setWriteProtect 0x43 true = 0xC3 ∧ setSeconds 0x80 7 false = some 0x07 := by decide

/-- R43: only 0b1010 in TCS enables charging; 0x5C, the DS1302's power-on value, and 0x00 disable it. -/
theorem test_trickle :
    trickleEnabled 0xA6 = true ∧ trickleDiodeOf 0xA6 = 1 ∧ trickleResistorOf 0xA6 = 2 ∧
    trickleEnabled 0x5C = false ∧ trickleSelectOf 0x5C = 5 ∧ trickleEnabled 0x00 = false ∧ trickleEnabled 0x6A = false := by
  decide

/-- V37. -/
theorem test_setter_refusals :
    setSeconds 0 60 false = none ∧ setHour 0 (.hour12 0 .am) = none ∧ setHour 0 (.hour12 13 .pm) = none ∧
    setHour 0 (.hour24 24) = none ∧ setDayOfMonth 0 0 = none ∧ setMonth 0 13 = none ∧ setDayOfWeek 0 0 = none ∧
    setYear 0 100 = none := by decide

/-- The fields of Scenario B (V3). -/
def scenarioB : ClockFields := ⟨0, false, 3, .hour24 13, 11, 9, 1, 19, false⟩

/-- V3. -/
theorem test_scenarioB :
    (encodeFields freshRecord scenarioB).map ClockRecord.bytes =
      some [0x00, 0x03, 0x13, 0x11, 0x09, 0x01, 0x19, 0x00] ∧
    decodeFields ⟨0x00, 0x03, 0x13, 0x11, 0x09, 0x01, 0x19, 0x00⟩ = scenarioB := by decide

/-- V38: no calendar check. -/
theorem test_no_calendar_check :
    (encodeFields freshRecord { scenarioB with dayOfMonth := 31, month := 2 }).map (fun r => (r.byte3, r.byte4)) =
      some (0x31, 0x02) := by decide

/-! ### The source syntax (R93, R94) -/

/-- The words of V21, assembled. -/
theorem test_assemble :
    (["WRITE HOURS, 0x12", "READ 0x85", "WRITE_RAM 5, 0xA5", "READ RAM(5)", "INIT_POLICY", "BURST_READ_RAM ; all", "  "].map
      (fun l => (assembleLine Config.regMap l.toList).toOption.map (fun qs => qs.map (fun q => (Request.word q).toNat)))) =
    [some [0x09421], some [0x00428], some [0x52E51], some [0x00650], some [0x00471, 0x00481], some [0x00004], some []] := by
  decide

theorem test_assemble_refuses :
    assembleLine Config.regMap "WRITE HOURS".toList = .error .wrongOperandCount ∧
    assembleLine Config.regMap "READ 256".toList = .error .badOperand ∧ assembleLine Config.regMap "READ_RAM 31".toList = .error .badOperand ∧
    assembleLine Config.regMap "JUMP 1".toList = .error .unknownMnemonic := by decide

/-! ### Witnesses: a state and operands that meet the hypotheses of each obligation -/

/-- An engine that performs an operation whose trace has `pos` events behind it. -/
def atPos (s : State) (pos : Nat) (phase : Phase) : State := { s with pos := pos, phase := phase }

/-- The bytes of a burst of `n`, all zero. -/
def zeros (n : Nat) : List (Fin 31 × Byte) := (burstIndices n).map (fun k => (k, 0))

theorem test_hyp_DecodeOfEncodeIsTheInstruction :
    Config.regMap.wf = true ∧ shiftedMap.wf = true ∧
    Instr.wellFormed (.burstWriteRam 0xFF 0xFF (List.replicate 31 0xFF)) = true ∧ Instr.wellFormed (.cmdWriteRam 30) = true :=
  ⟨default_map_wf, shifted_map_wf, by decide, by decide⟩

theorem test_hyp_DecodedBytesAreTheEncoding :
    decodeWith Config.regMap [0x21, 0x94, 0x00] = .ok (.write 0x84 0x12) ∧
    decodeWith shiftedMap [0xA1] = .ok (.cmdReadRam 30) := by decide

theorem test_hyp_CommandBytesAreClassified :
    decodeCommand Config.regMap 0x91 = .ok .cmdReadTrickle ∧ decodeCommand Config.regMap 0xBE = .ok .cmdWriteClockBurst ∧
    decodeCommand Config.regMap 0xFD = .ok (.cmdReadRam 30) := by decide

theorem test_hyp_StepRunsThePlacedWord :
    decodeTableWord 8 0xFF = some .cmdReadRamBurst ∧ decodeTableWord 8 0x80 = some .cmdWriteSeconds ∧
    decodeTableWord 8 0x7F = some (.reservedOp7 0x0F 0) ∧ decodeTableWord 24 0x7FFFF = some (.reservedOp7 0xFF 0xFF) := by decide

theorem test_hyp_StepRunsTheDecodedInstruction :
    ((commanded .chip 0x8E).rst = false ∧ (commanded .chip 0x8E).port.valid = false ∧
      (commanded .chip 0x8E).periph.commandReady = true ∧
      decodeCommand (commanded .chip 0x8E).commandMap (commanded .chip 0x8E).periph.shift = .ok .cmdWriteControl) ∧
    (let s := State.reset.withFetchWord 24 0x00420
     s.rst = false ∧ s.reqReady = true ∧ s.port.valid = true) ∧
    (ready.rst = false ∧ ready.reqReady = true ∧ ready.port.valid = false ∧ ready.periph.commandReady = false) := by decide

/-- The smallest and the largest valid operand. -/
theorem test_hyp_ReadIsAccepted :
    ready.reqReady = true ∧ validAddr ready.params.regMap 0x80 = true ∧ validAddr ready.params.regMap 0xFF = true := by decide

theorem test_hyp_WriteIsAccepted :
    ready.reqReady = true ∧ validAddr ready.params.regMap 0x80 = true ∧ validAddr ready.params.regMap 0xFF = true := by decide

theorem test_hyp_BurstsAreAccepted :
    ready.reqReady = true ∧ ready.params.hasRamBurst = true ∧ (List.replicate 8 (0 : Byte)).length = 8 ∧
    (List.replicate 31 (0 : Byte)).length = 31 := by decide

theorem test_hyp_ReservedCodesAreRejected :
    ready.reqReady = true ∧
    (let s := { ready with params := { Params.default with hasRamBurst := false } }
     s.reqReady = true ∧ s.params.hasRamBurst = false) := by decide

/-- The largest operand below bit 7, and the ends of the gap in the clock space. -/
theorem test_hyp_InvalidAddressIsRejected :
    ready.reqReady = true ∧ ready.params.regMap = Config.regMap ∧
    ∀ addr ∈ ([0x7F, 0x92, 0xBD] : List Byte),
      addr &&& 0xFE ∉ ready.params.regMap.writeForms ∧
      ¬ ((addr &&& 0xFE).getLsbD 7 = true ∧
          ((addr &&& 0xFE).getLsbD 6 = true ∨ (commandIndex (addr &&& 0xFE)).toNat ≤ 8 ∨
            commandIndex (addr &&& 0xFE) = 31)) := by decide

theorem test_hyp_ReadFlagIsForced : ready.reqReady = true ∧ validAddr ready.params.regMap 0x91 = true := by decide

theorem test_hyp_BurstsSendTheirFixedCommand :
    ready.reqReady = true ∧ ready.params.hasRamBurst = true ∧ ready.params.regMap = Config.regMap ∧ (List.replicate 8 (0 : Byte)).length = 8 ∧
    (List.replicate 31 (0 : Byte)).length = 31 := by decide

/-- A busy engine, a request that is held, and one that is shown for a step with each move still to come. -/
theorem test_hyp_RequestsWaitWhileBusy :
    writeInHand.reqReady = false ∧
    (let s := { writeInHand with port := ⟨true, true, Request.blank⟩ }
     s.port.valid = true ∧ s.port.held = true) ∧
    (∀ m ∈ [HostMove.request Request.blank, .present Request.blank, .hold, .reset true],
      let s := { writeInHand with port := ⟨true, false, Request.blank⟩, script := [m] }
      (s.port.valid = false ∨ s.port.held = false ∨ false = true) ∧ s.script = m :: []) := by decide

theorem test_hyp_RequestSignalsDoNotMatterWhileBusy : writeInHand.reqReady = false ∧ ∃ a, step writeInHand = .next a :=
  ⟨by decide, _, rfl⟩

theorem test_hyp_TraceDependsOnTheRequestAlone :
    let s := { ready with dout := true, rspRdata := some 0x12 }
    ready.reqReady = true ∧ s.reqReady = true ∧ ready.params = s.params ∧
    (∃ t, exec (.read 0x84 0) ready = .next t ∧ t.phase ≠ .idle) ∧ (∃ t, exec (.read 0x84 0) s = .next t) :=
  ⟨by decide, by decide, rfl, ⟨_, rfl, by decide⟩, _, rfl⟩

theorem test_hyp_RegisterCommandsSelectTheirRegister :
    State.reset.periph.kind ≠ .absent ∧ (.cmdReadTrickle, 8, true) ∈ clockCommands ∧ (30 : BitVec 5) ≠ 31 := by decide

theorem test_hyp_BurstCommandsStartAtTheFirstRegister :
    State.reset.periph.kind ≠ .absent ∧ State.reset.periph.kind = .chip ∧ ready.periph.kind ≠ .absent ∧
    ready.periph.kind = .responder := by decide

theorem test_hyp_AbsentPeripheralTakesNoCommand :
    (commanded .absent 0x80).periph.kind = .absent ∧ (.cmdReadTrickle, 8, true) ∈ clockCommands ∧
    (.cmdReadRamBurst, 31, true, true) ∈ otherCommands 0 := by decide

theorem test_hyp_LatchesChangeOnlyByTheirEvents : writeInHand.rst = false ∧ ∃ t, step writeInHand = .next t :=
  ⟨by decide, _, rfl⟩

/-- The first and the last event of a WRITE. -/
theorem test_hyp_SequencerPerformsTheNextEvent :
    (writeInHand.turn = .sequencer ∧ writeInHand.noWait ∧ writeInHand.operationTrace = writeTrace 0x84 0x12 ∧
      (writeTrace 0x84 0x12)[0]? = some (frameEntry .active (.dir .out)) ∧ ∃ t, step writeInHand = .next t) ∧
    (let s := atPos writeInHand 100 .closing
     s.turn = .sequencer ∧ s.noWait ∧ s.operationTrace = writeTrace 0x84 0x12 ∧
      (writeTrace 0x84 0x12)[100]? = some (frameEntry .closing (.wait .ceRec)) ∧ ∃ t, step s = .next t) :=
  ⟨⟨by decide, nofun, rfl, by decide, _, rfl⟩, by decide, nofun, rfl, by decide, _, rfl⟩

theorem test_hyp_SequencerDoesNotReadThePeripheral : writeInHand.opInHand.isRead = false := rfl

theorem test_hyp_WaitsHoldTheSequencer :
    let s := { writeInHand with waitCtr := some 1 }
    s.turn = .sequencer ∧ s.waitCtr = some (0 + 1) := by decide

/-- The ends of a WRITE, of a clock-burst read and of a RAM-burst read. -/
theorem test_hyp_CompletionGivesTheResponse :
    (let s := atPos writeInHand 101 .closing
     s.turn = .sequencer ∧ s.noWait ∧ s.operationTrace = writeTrace 0x84 0x12 ∧ (writeTrace 0x84 0x12).length ≤ s.pos ∧
      s.initPending = false ∧ s.op = some .write ∧ s.holdsOperands = true) ∧
    (let s := atPos (ready.accept .burstReadClock 0xBF 0 (cellsOf (zeros 8))) 371 .closing
     s.turn = .sequencer ∧ s.noWait ∧ s.operationTrace = burstReadTrace 0xBF 8 ∧
      (burstReadTrace 0xBF 8).length ≤ s.pos ∧ s.initPending = false ∧ s.op = some .burstReadClock ∧
      s.holdsOperands = true ∧
      ∀ k : Fin 31, k.val < 8 → (Cells.read s.buf k.val).isSome = true) ∧
    (let s := atPos (ready.accept .burstReadRam 0xFF 0 (cellsOf (zeros 31))) 1291 .closing
     s.turn = .sequencer ∧ s.noWait ∧ s.operationTrace = burstReadTrace 0xFF 31 ∧
      (burstReadTrace 0xFF 31).length ≤ s.pos ∧ s.initPending = false ∧ s.op = some .burstReadRam ∧
      s.holdsOperands = true ∧
      ∀ k : Fin 31, (Cells.read s.buf k.val).isSome = true) :=
  ⟨⟨by decide, nofun, rfl, by decide, rfl, rfl, rfl⟩,
    ⟨by decide, nofun, rfl, by decide +kernel, rfl, rfl, rfl, by decide +kernel⟩,
    by decide, nofun, rfl, by decide +kernel, rfl, rfl, rfl, by decide +kernel⟩

theorem test_hyp_ResponseComesOnlyAtTheEnd :
    let s := atPos writeInHand 101 .closing
    ∃ t, step s = .next t ∧ s.rspValid = false ∧ t.rspValid = true :=
  ⟨_, rfl, rfl, rfl⟩

theorem test_hyp_EveryTraceIsOneFramedTransaction : writeInHand.operationTrace = writeTrace 0x84 0x12 := rfl

theorem test_hyp_SampleWritesOneBit : 0 ≠ (7 : Fin 8).val ∧ 6 ≠ (7 : Fin 8).val := by decide

theorem test_hyp_TraceShapes : (zeros 8).length = 8 ∧ (zeros 31).length = 31 := by decide

theorem test_hyp_HandOffComesBeforeTheClockFalls :
    burstReadTrace 0xFF 31 ∈ [readTrace 0xFF, burstReadTrace 0xFF 8, burstReadTrace 0xFF 31] :=
  .tail _ (.tail _ (.head _))

theorem test_hyp_LineResolution :
    (let s := { ready with dir := .out }
     s.dir = .out ∧ s.periph.drive = false) ∧
    (let s := { ready with periph := { Periph.initial .responder with drive := true } }
     s.dir = .in ∧ s.periph.drive = true ∧ s.aborted = false) ∧
    (let s := { sending with dir := .out }
     (emit (.clk false) s).dir = .out ∧ (emit (.clk false) s).periph.drive = true) := by decide

theorem test_hyp_FaultsAreSticky :
    let s := { writeInHand with contention := true, noValueRead := true, rst := true }
    s.contention = true ∧ s.noValueRead = true ∧ ∃ t, step s = .next t :=
  ⟨rfl, rfl, _, rfl⟩

/-- In the middle of an operation, and at IDLE with CE low. -/
theorem test_hyp_ResetGivesTheResetValues :
    ({ writeInHand with rst := true } : State).rst = true ∧
    (let s := { ready with rst := true, dout := true }
     s.rst = true ∧ s.phase = .idle ∧ s.ce = false) := by decide

theorem test_hyp_InitPolicyWritesControlThenTrickle :
    (let s := { ready with initPending := true }
     s.rst = false ∧ s.periph.commandReady = false ∧ s.phase = .idle ∧ s.initPending = true ∧ s.initSecond = false) ∧
    (let s := { ready with initPending := true, initSecond := true }
     s.rst = false ∧ s.periph.commandReady = false ∧ s.phase = .idle ∧ s.initPending = true ∧ s.initSecond = true) ∧
    (let s := atPos { ready.beginOp .write 0x8E 0x00 [] with initPending := true } 101 .closing
     s.turn = .sequencer ∧ s.noWait ∧ s.operationTrace.length ≤ s.pos ∧ s.initPending = true) :=
  ⟨by decide, by decide, by decide, nofun, by decide, rfl⟩

/-- The last step of the second init write. -/
theorem test_hyp_InitPolicyGivesNoResponse :
    let s := atPos { ready.beginOp .write 0x90 0x00 [] with initPending := true, initSecond := true } 101 .closing
    ∃ t, s.initPending = true ∧ s.rst = false ∧ step s = .next t ∧ t.initPending = false :=
  ⟨_, rfl, rfl, rfl, rfl⟩

theorem test_hyp_ResponderFollowsChipEnable : ready.periph.kind = .responder ∧ ready.aborted = false := by decide

/-- Each clause of the rising edge at the last bit it covers; then a command byte at each end of what names nothing. -/
theorem test_hyp_ResponderRisingEdge :
    (let s := { commanded .responder 0x80 with periph := { Periph.initial .responder with mode := .cmd, nbits := 7 } }
     s.periph.kind = .responder ∧ s.clk = false ∧ s.aborted = false ∧ s.periph.mode = .cmd ∧ s.periph.nbits < 8) ∧
    (let s := receiving .responder false 6
     s.periph.kind = .responder ∧ s.clk = false ∧ s.aborted = false ∧ s.periph.mode = .wdata ∧ s.periph.nbits < 7) ∧
    (let s := receiving .responder true 7
     s.periph.kind = .responder ∧ s.clk = false ∧ s.aborted = false ∧ s.periph.mode = .wdata ∧ s.periph.nbits = 7) ∧
    (ready.periph.kind = .responder ∧ ready.clk = false ∧ ready.aborted = false ∧ ready.periph.mode = .off) ∧
    (∀ c ∈ ([0x7F, 0x92, 0xBD, 0x91, 0xBE, 0xFF] : List Byte),
      let s := commanded .responder c
      s.periph.kind = .responder ∧ s.rst = false ∧ s.periph.mode = .cmd ∧ s.periph.nbits = 8 ∧ s.port.valid = false) := by
  decide

theorem test_hyp_ResponderFallingEdge :
    (sending.periph.kind = .responder ∧ sending.clk = true ∧ sending.aborted = false ∧ sending.periph.mode = .rdata) ∧
    (let s := { ready with clk := true }
     s.periph.kind = .responder ∧ s.clk = true ∧ s.aborted = false ∧ s.periph.mode ≠ .rdata) := by decide

theorem test_hyp_CommandByteReachesThePeripheral :
    let s := { ready with ce := true, dir := .out, periph := { Periph.initial .chip with mode := .cmd } }
    s.periph.kind ≠ .absent ∧ s.periph.mode = .cmd ∧ s.periph.nbits = 0 ∧ s.periph.drive = false ∧ s.dir = .out ∧
    s.clk = false ∧ s.aborted = false := by decide

/-- The responder and the chip, WP clear and set, at TRICKLE, CONTROL and RAM(30). -/
theorem test_hyp_WrittenByteReachesTheRegister :
    (∀ kind ∈ [DeviceKind.responder, .chip], ∀ control ∈ ([0x00, 0x80] : List Byte),
      ∀ r ∈ [(false, 8), (false, 7), (true, 30)],
        let s := { receiving kind r.1 0 with
          periph := { Periph.initial kind with mode := .wdata, rc := r.1, ptr := r.2, store := [(7, control)] } }
        s.periph.mode = .wdata ∧ s.periph.burst = false ∧ s.periph.nbits = 0 ∧ s.periph.drive = false ∧ s.dir = .out ∧
        s.clk = false ∧ s.aborted = false ∧ s.periph.kind = kind ∧ s.periph.wp = control.getLsbD 7 ∧
        cellOf s.periph.rc s.periph.ptr = cellOf r.1 r.2) ∧
    cellOf false 7 = controlCell ∧ cellOf false 8 ≠ controlCell ∧ cellOf true 30 ≠ controlCell :=
  ⟨fun _ _ _ _ _ _ => ⟨rfl, rfl, rfl, rfl, rfl, rfl, rfl, rfl, rfl, rfl⟩, by decide⟩

theorem test_hyp_ReadByteReachesTheEngine :
    sending.periph.kind ≠ .absent ∧ sending.periph.mode = .rdata ∧ sending.periph.nbits = 0 ∧
    sending.periph.ptr < sending.periph.limit ∧ sending.dir = .in ∧ sending.aborted = false ∧
    sending.periph.kind = .responder ∧
    (let p := { Periph.initial .chip with burst := true, snapshot := [(0, 0x27)] }
     p.kind = .chip ∧ p.burst = true ∧ p.rc = false ∧ Cells.read p.snapshot p.ptr = some 0x27) ∧
    (let p := { Periph.initial .chip with rc := true }
     p.kind = .chip ∧ p.rc = true) := by decide

theorem test_hyp_WriteProtectAtTheChip :
    (let p := { Periph.initial .chip with store := [(7, 0x80)] }
     p.kind = .chip ∧ p.wp = true ∧ 0 ≠ controlCell ∧ 8 ≠ controlCell ∧ 62 ≠ controlCell) ∧
    (let p := { Periph.initial .chip with store := [(7, 0x7F)] }
     p.kind = .chip ∧ p.wp = false) := by decide

/-- The last byte of a RAM burst, WP clear and set. -/
theorem test_hyp_ChipWritesEachRamBurstByte :
    ∀ control ∈ ([0x00, 0x80] : List Byte),
      let r := receiving .chip true 0
      let s := { r with periph := { r.periph with ptr := 30, store := [(7, control)] } }
      s.periph.kind = .chip ∧ s.periph.mode = .wdata ∧ s.periph.burst = true ∧ s.periph.rc = true ∧ s.periph.ptr < 31 ∧
      s.periph.nbits = 0 ∧ s.periph.drive = false ∧ s.dir = .out ∧ s.clk = false ∧ s.aborted = false ∧
      s.periph.wp = control.getLsbD 7 :=
  fun _ _ => ⟨rfl, rfl, rfl, rfl, Nat.lt_succ_self 30, rfl, rfl, rfl, rfl, rfl, rfl⟩

theorem test_hyp_CutShortClockBurstLeavesFreeValues :
    (let s := { ready with periph := { Periph.initial .chip with staged := [(0, 0x55)] } }
     s.periph.kind = .chip ∧ s.aborted = false ∧ s.periph.staged ≠ [] ∧ 8 ≤ 8 ∧ 8 < 32) ∧
    (State.reset.periph.kind = .chip ∧ State.reset.aborted = false ∧ State.reset.periph.staged = []) := by decide

/-- WP clear and set; bursts of eight, of seven and of one byte. -/
theorem test_hyp_ClockBurstWriteCommitsTheRecord :
    (∀ control ∈ ([0x00, 0x80] : List Byte),
      let r := receiving .chip false 0
      let s := { r with periph := { r.periph with store := [(7, control)] } }
      s.periph.kind = .chip ∧ s.periph.mode = .wdata ∧ s.periph.burst = true ∧ s.periph.rc = false ∧ s.periph.ptr = 0 ∧
      s.periph.staged = [] ∧ s.periph.nbits = 0 ∧ s.periph.drive = false ∧ s.dir = .out ∧ s.clk = false ∧
      s.aborted = false ∧ s.periph.wp = control.getLsbD 7) ∧
    (zeros 8).length = 8 ∧ (zeros 7).length < 8 ∧ (zeros 1).length < 8 ∧ zeros 1 ≠ [] :=
  ⟨fun _ _ => ⟨rfl, rfl, rfl, rfl, rfl, rfl, rfl, rfl, rfl, rfl, rfl, rfl⟩, by decide⟩

theorem test_hyp_ReadsHaveNoSideEffect :
    sending.aborted = false ∧ sending.periph.mode = .rdata ∧ ∀ b, Event.clk false ≠ .ce b := by decide

theorem test_hyp_ClockAdvancesOnlyTheTimeRegisters : State.reset.periph.kind = .chip ∧ State.reset.aborted = false := by decide

/-- A reset in the middle of a write; a step of a machine with an abort recorded. -/
theorem test_hyp_AbortedPeripheralIsInAnyState :
    (let s := { writeInHand with rst := true }
     s.rst = true ∧ s.phase ≠ .idle ∧ s.periph.kind ≠ .absent) ∧
    (let s := { writeInHand with aborted := true }
     s.aborted = true ∧ s.periph.kind ≠ .absent) := by decide

/-- A state with bytes in every memory. -/
theorem test_hyp_StepKeepsMemoriesCanonical :
    let s := { ready with
      rx := [(0, true), (7, false)], buf := [(0, 0x55), (30, 0xAA)], rspRbuf := [(7, 0x01)],
      periph := { Periph.initial .responder with store := [(8, 0x01), (32, 0x02), (62, 0x03)] } }
    s.MemoriesCanonical ∧ ∃ t, step s = .next t :=
  ⟨by simp [State.MemoriesCanonical, Cells.below, Memory.wf, Cells.wf, cellExists, Periph.initial], _, rfl⟩

/-- The engine at IDLE with the responder wired up conforms. -/
theorem ready_conforming : ready.Conforming :=
  ⟨rfl, default_map_wf, fun _ => ⟨rfl, rfl⟩, fun h => absurd rfl h,
    fun _ => ⟨rfl, fun _ => ⟨rfl, fun _ => rfl⟩, fun h => absurd rfl h⟩⟩

/-- An accepted WRITE, before its first event, conforms. -/
theorem writeInHand_conforming : writeInHand.Conforming := by
  refine ⟨rfl, default_map_wf, fun h => absurd h (by decide),
    fun _ => ⟨.write, 0x84, rfl, rfl, rfl, ⟨.cmdWriteHours, by decide⟩, by decide, ?_⟩,
    fun _ => ⟨rfl, fun h => absurd h (by decide), fun _ => ⟨nofun, fun _ => ⟨rfl, fun _ => rfl⟩⟩⟩⟩
  exact ⟨by decide, ⟨false, .in, rfl⟩, rfl, by decide, nofun⟩

/-- The same WRITE before event `CE(0)`, with the responder receiving. -/
def writeAlmostDone : State :=
  { atPos writeInHand 99 .writing with
    ce := true, dir := .out, periph := { Periph.initial .responder with mode := .wdata, ptr := 2 } }

theorem writeAlmostDone_conforming : writeAlmostDone.Conforming := by
  refine ⟨rfl, default_map_wf, fun h => absurd h (by decide),
    fun _ => ⟨.write, 0x84, rfl, rfl, rfl, ⟨.cmdWriteHours, by decide⟩, by decide, ?_⟩,
    fun _ => ⟨rfl, fun h => absurd h (by decide), fun _ => ⟨nofun, fun _ => .inr (.inr ⟨rfl, .inl rfl, rfl⟩)⟩⟩⟩
  exact ⟨by decide, ⟨false, .in, by decide⟩, by decide, by decide +kernel, by decide +kernel⟩

theorem test_hyp_StepKeepsConforming :
    (ready.Conforming ∧ ∃ t, step ready = .next t) ∧ (writeInHand.Conforming ∧ ∃ t, step writeInHand = .next t) :=
  ⟨⟨ready_conforming, _, rfl⟩, writeInHand_conforming, _, rfl⟩

theorem test_hyp_ConformingMachineNeverStops : ready.Conforming ∧ writeAlmostDone.Conforming :=
  ⟨ready_conforming, writeAlmostDone_conforming⟩

/-- `CE(0)` of a WRITE. -/
theorem test_hyp_ClockIsLowAtEveryEnableEvent :
    writeAlmostDone.Conforming ∧ writeAlmostDone.phase ≠ .idle ∧
    writeAlmostDone.operationTrace = writeTrace 0x84 0x12 ∧
    (writeTrace 0x84 0x12)[writeAlmostDone.pos]? = some (frameEntry .closing (.ce false)) ∧
    (frameEntry .closing (.ce false)).event = .ce false :=
  ⟨writeAlmostDone_conforming, by decide, rfl, by decide, rfl⟩

theorem test_hyp_OperationRunsItsWholeTrace :
    writeInHand.Conforming ∧ writeInHand.phase ≠ .idle ∧ writeInHand.noResetToCome ∧
    writeInHand.operationTrace = writeTrace 0x84 0x12 ∧ writeInHand.initPending = false :=
  ⟨writeInHand_conforming, by decide, ⟨rfl, nofun⟩, rfl, rfl⟩

/-- RAM(30), the last register. -/
theorem test_hyp_WriteThenReadReturnsTheByte :
    let s := { ready with port := ⟨true, true, ⟨1, 0xFC, 0x5A, []⟩⟩, script := [.request ⟨0, 0xFC, 0x00, []⟩] }
    s.Conforming ∧ s.reqReady = true ∧ s.rst = false ∧ s.periph.kind = .responder ∧ s.aborted = false ∧
    s.params.regMap = Config.regMap ∧ validAddr Config.regMap 0xFC = true ∧
    (0xFC : Byte) &&& 0xFE ≠ 0xBE ∧ (0xFC : Byte) &&& 0xFE ≠ 0xFE ∧
    s.port = ⟨true, true, ⟨1, 0xFC, 0x5A, []⟩⟩ ∧ s.script = [.request ⟨0, 0xFC, 0x00, []⟩] :=
  ⟨ready_conforming, by decide, rfl, rfl, rfl, rfl, by decide, by decide, by decide, rfl, rfl⟩

/-- The ends of the domain. -/
theorem test_hyp_BcdRoundTrip : 0 ≤ 99 ∧ 99 ≤ 99 ∧ 99 < 100 := by decide

/-- Each setter at the top of its domain, over a byte whose every bit is set. -/
theorem test_hyp_SettersKeepReservedBits :
    setSeconds 0xFF 59 true = some 0xD9 ∧ setMinutes 0xFF 59 = some 0xD9 ∧ setHour 0xFF (.hour24 23) = some 0x63 ∧
    setHour 0xFF (.hour12 12 .pm) = some 0xF2 ∧ setDayOfMonth 0xFF 31 = some 0xF1 ∧ setMonth 0xFF 12 = some 0xF2 ∧
    setDayOfWeek 0xFF 7 = some 0xFF ∧ setYear 0xFF 99 = some 0x99 := by decide

theorem test_hyp_DecodeOfEncodedRecord :
    encodeFields freshRecord scenarioB = some ⟨0x00, 0x03, 0x13, 0x11, 0x09, 0x01, 0x19, 0x00⟩ := by decide

end Sys2Proof.Tests
end

/-! PROOFS. The encoding (30_encoding.md R80 to R91): a request word and its three bytes, a command byte and the row of its map, and the
statements that decoding and encoding agree. -/

namespace Sys2Proof

open Sys2Proof.Machine

/-! ### The request word (R89) -/

/-- A word is put together again from its three bytes. -/
theorem word_of_its_bytes (w : BitVec 19) :
    ((0 : BitVec 5) ++ w.extractLsb' 16 3).extractLsb' 0 3 ++ w.extractLsb' 8 8 ++ w.extractLsb' 0 8 = w := by
  ext i hi
  grind

/-- The five bits above the word are 0 in its third byte. -/
theorem thirdByte_highBits (w : BitVec 19) : ((0 : BitVec 5) ++ w.extractLsb' 16 3).extractLsb' 3 5 = 0 := by
  ext i hi
  grind

/-- Three bytes without a bit above the word are the bytes of the word put together from them. -/
theorem bytes_of_their_word (b0 b1 b2 : Byte) (h : b2.extractLsb' 3 5 = 0) :
    let w : BitVec 19 := b2.extractLsb' 0 3 ++ b1 ++ b0
    w.extractLsb' 0 8 = b0 ∧ w.extractLsb' 8 8 = b1 ∧ (0 : BitVec 5) ++ w.extractLsb' 16 3 = b2 := by
  have hbit : ∀ i, 3 ≤ i → i < 8 → b2.getLsbD i = false := by
    intro i h3 h8
    have hi := congrArg (·.getLsbD (i - 3)) h
    grind
  refine ⟨?_, ?_, ?_⟩ <;> ext i hi <;> grind

@[simp] theorem requestWord_op (op : BitVec 3) (addr wdata : Byte) :
    (requestWord op addr wdata).extractLsb' 0 3 = op := by
  ext i hi
  grind [requestWord]

@[simp] theorem requestWord_addr (op : BitVec 3) (addr wdata : Byte) :
    (requestWord op addr wdata).extractLsb' 3 8 = addr := by
  ext i hi
  grind [requestWord]

@[simp] theorem requestWord_wdata (op : BitVec 3) (addr wdata : Byte) :
    (requestWord op addr wdata).extractLsb' 11 8 = wdata := by
  ext i hi
  grind [requestWord]

/-- A word is the request word of its three fields. -/
theorem requestWord_of_fields (w : BitVec 19) :
    requestWord (w.extractLsb' 0 3) (w.extractLsb' 3 8) (w.extractLsb' 11 8) = w := by
  ext i hi
  grind [requestWord]

/-! ### Requests -/

/-- The bytes of a request word, with a payload of the operation's length after them, decode to the request (R89, R90). -/
theorem decodeWith_requestBytes (m : RegMap) (op : BitVec 3) (addr wdata : Byte) {payload : List Byte}
    (h : payload.length = payloadLen op) :
    decodeWith m (requestBytes op addr wdata ++ payload) = .ok (decodeRequest op addr wdata payload) := by
  simp only [requestBytes, List.cons_append, List.nil_append, decodeWith, thirdByte_highBits, if_true,
    word_of_its_bytes, decodeWord, requestWord_op, requestWord_addr, requestWord_wdata, h]

/-- A three-bit operation code is one of eight. -/
theorem op_cases (op : BitVec 3) :
    op = 0 ∨ op = 1 ∨ op = 2 ∨ op = 3 ∨ op = 4 ∨ op = 5 ∨ op = 6 ∨ op = 7 := by
  revert op
  decide

/-- Only a burst write has a payload, and its length makes the request well formed (R67). -/
theorem decodeRequest_wellFormed {op : BitVec 3} (addr wdata : Byte) {payload : List Byte}
    (h : payload.length = payloadLen op) : (decodeRequest op addr wdata payload).wellFormed = true := by
  rcases op_cases op with rfl | rfl | rfl | rfl | rfl | rfl | rfl | rfl <;>
    simp_all [decodeRequest, payloadLen, Instr.wellFormed]

/-- A request encodes to the bytes of its word and its payload. -/
theorem encodeWith_decodeRequest (m : RegMap) {op : BitVec 3} (addr wdata : Byte) {payload : List Byte}
    (h : payload.length = payloadLen op) :
    encodeWith m (decodeRequest op addr wdata payload) = requestBytes op addr wdata ++ payload := by
  rcases op_cases op with rfl | rfl | rfl | rfl | rfl | rfl | rfl | rfl <;>
    simp_all [decodeRequest, payloadLen, encodeWith]

/-! ### Command bytes -/

/-- The keys of the command table are the write forms of the map. -/
theorem commandTable_writeForms (m : RegMap) : (commandTable m).map CommandRow.writeForm = m.writeForms := by
  simp [commandTable, clockRows, ramRows, burstRows, RegMap.writeForms, RegMap.registers, Function.comp_def]

/-- A row of the table is a clock-space register's, a RAM byte's or a burst's. -/
theorem mem_commandTable {m : RegMap} {r : CommandRow} :
    r ∈ commandTable m ↔ r ∈ clockRows m ∨ r ∈ ramRows m ∨ r ∈ burstRows m := by
  simp [commandTable]

/-- The instruction of a row encodes to the row's byte, with bit 0 set in the read form (R80, R84). -/
theorem encodeWith_make {m : RegMap} {r : CommandRow} (h : r ∈ commandTable m) (read : Bool) :
    encodeWith m (r.make read) = [if read then r.writeForm ||| 0x01 else r.writeForm] := by
  rcases mem_commandTable.mp h with h | h | h
  · simp only [clockRows, List.mem_cons, List.not_mem_nil, or_false] at h
    rcases h with rfl | rfl | rfl | rfl | rfl | rfl | rfl | rfl | rfl <;> cases read <;> rfl
  · obtain ⟨n, hn, rfl⟩ := List.mem_map.mp h
    have hn : n % 32 = n := by simp [Config.ramSize] at hn; omega
    cases read <;> simp [encodeWith, hn]
  · simp only [burstRows, List.mem_cons, List.not_mem_nil, or_false] at h
    rcases h with rfl | rfl <;> cases read <;> rfl

/-- The instruction of a row is well formed. -/
theorem make_wellFormed {m : RegMap} {r : CommandRow} (h : r ∈ commandTable m) (read : Bool) :
    (r.make read).wellFormed = true := by
  rcases mem_commandTable.mp h with h | h | h
  · simp only [clockRows, List.mem_cons, List.not_mem_nil, or_false] at h
    rcases h with rfl | rfl | rfl | rfl | rfl | rfl | rfl | rfl | rfl <;> cases read <;> rfl
  · obtain ⟨n, hn, rfl⟩ := List.mem_map.mp h
    have hn : BitVec.ofNat 5 n ≠ 31 := fun hc => by
      have h31 := congrArg BitVec.toNat hc
      simp [Config.ramSize] at hn h31
      omega
    cases read <;> simpa [Instr.wellFormed] using hn
  · simp only [burstRows, List.mem_cons, List.not_mem_nil, or_false] at h
    rcases h with rfl | rfl <;> cases read <;> rfl

/-- A row of a command table and one of its two forms, for the instruction it makes. -/
def HasRow (m : RegMap) (i : Instr) : Prop := ∃ r ∈ commandTable m, ∃ read, r.make read = i

/-- A request, as the operation code and operands of its word. -/
def IsRequest (i : Instr) : Prop :=
  ∃ op addr wdata payload, payload.length = payloadLen op ∧ decodeRequest op addr wdata payload = i

/-- The `k`-th clock-space register has a row. -/
theorem hasRow_clock (m : RegMap) (k : Fin 9) (read : Bool) :
    HasRow m (((clockRows m)[k.val]'k.isLt).make read) :=
  ⟨_, mem_commandTable.mpr (.inl (List.getElem_mem _)), read, rfl⟩

/-- A RAM index that names a RAM byte has a row. -/
theorem hasRow_ram (m : RegMap) {n : BitVec 5} (h : n ≠ 31) (read : Bool) :
    HasRow m (if read then .cmdReadRam n else .cmdWriteRam n) := by
  refine ⟨⟨m.ram n.toNat, fun read => if read then .cmdReadRam n else .cmdWriteRam n⟩, ?_, read, rfl⟩
  refine mem_commandTable.mpr (.inr (.inl (List.mem_map.mpr ⟨n.toNat, ?_, by simp⟩)))
  have hlt := n.isLt
  have hne : n.toNat ≠ 31 := fun hc => h (BitVec.eq_of_toNat_eq hc)
  simp only [Config.ramSize, List.mem_range]
  omega

/-- Each burst has a row. -/
theorem hasRow_burst (m : RegMap) (k : Fin 2) (read : Bool) :
    HasRow m (((burstRows m)[k.val]'k.isLt).make read) :=
  ⟨_, mem_commandTable.mpr (.inr (.inr (List.getElem_mem _))), read, rfl⟩

/-- Every well-formed instruction is a request or the command of a row. -/
theorem isRequest_or_hasRow (m : RegMap) {i : Instr} (h : i.wellFormed = true) : IsRequest i ∨ HasRow m i := by
  cases i with
  | read a w => exact .inl ⟨0, a, w, [], rfl, rfl⟩
  | write a w => exact .inl ⟨1, a, w, [], rfl, rfl⟩
  | burstReadClock a w => exact .inl ⟨2, a, w, [], rfl, rfl⟩
  | burstWriteClock a w p => exact .inl ⟨3, a, w, p, beq_iff_eq.mp h, rfl⟩
  | burstReadRam a w => exact .inl ⟨4, a, w, [], rfl, rfl⟩
  | burstWriteRam a w p => exact .inl ⟨5, a, w, p, beq_iff_eq.mp h, rfl⟩
  | reservedOp6 a w => exact .inl ⟨6, a, w, [], rfl, rfl⟩
  | reservedOp7 a w => exact .inl ⟨7, a, w, [], rfl, rfl⟩
  | cmdWriteSeconds => exact .inr (hasRow_clock m 0 false)
  | cmdReadSeconds => exact .inr (hasRow_clock m 0 true)
  | cmdWriteMinutes => exact .inr (hasRow_clock m 1 false)
  | cmdReadMinutes => exact .inr (hasRow_clock m 1 true)
  | cmdWriteHours => exact .inr (hasRow_clock m 2 false)
  | cmdReadHours => exact .inr (hasRow_clock m 2 true)
  | cmdWriteDate => exact .inr (hasRow_clock m 3 false)
  | cmdReadDate => exact .inr (hasRow_clock m 3 true)
  | cmdWriteMonth => exact .inr (hasRow_clock m 4 false)
  | cmdReadMonth => exact .inr (hasRow_clock m 4 true)
  | cmdWriteWeekday => exact .inr (hasRow_clock m 5 false)
  | cmdReadWeekday => exact .inr (hasRow_clock m 5 true)
  | cmdWriteYear => exact .inr (hasRow_clock m 6 false)
  | cmdReadYear => exact .inr (hasRow_clock m 6 true)
  | cmdWriteControl => exact .inr (hasRow_clock m 7 false)
  | cmdReadControl => exact .inr (hasRow_clock m 7 true)
  | cmdWriteTrickle => exact .inr (hasRow_clock m 8 false)
  | cmdReadTrickle => exact .inr (hasRow_clock m 8 true)
  | cmdWriteRam n => exact .inr (hasRow_ram m (bne_iff_ne.mp h) false)
  | cmdReadRam n => exact .inr (hasRow_ram m (bne_iff_ne.mp h) true)
  | cmdWriteClockBurst => exact .inr (hasRow_burst m 0 false)
  | cmdReadClockBurst => exact .inr (hasRow_burst m 0 true)
  | cmdWriteRamBurst => exact .inr (hasRow_burst m 1 false)
  | cmdReadRamBurst => exact .inr (hasRow_burst m 1 true)

/-! ### Decoding a command byte -/

/-- A byte without bit 0, and with it set again where it was set, is the byte. -/
theorem commandByte_split (c : Byte) : (if c.getLsbD 0 then (c &&& 0xFE) ||| 0x01 else c &&& 0xFE) = c := by
  revert c
  decide

/-- In a map that meets `RegMap.wf` bit 0 of every write form is 0, so the two forms of a row differ in it alone (R34, R83). -/
theorem forms_of_even {c : Byte} (h : c.getLsbD 0 = false) (read : Bool) :
    (if read then c ||| 0x01 else c) &&& 0xFE = c ∧ (if read then c ||| 0x01 else c).getLsbD 0 = read := by
  revert c read
  decide

/-- What `decodeCommand` answers with: the instruction of a row of the table whose write form the byte is without bit 0. -/
theorem decodeCommand_eq_ok {m : RegMap} {c : Byte} {i : Instr} (h : decodeCommand m c = .ok i) :
    ∃ r ∈ commandTable m, r.writeForm = c &&& 0xFE ∧ r.make (c.getLsbD 0) = i := by
  unfold decodeCommand at h
  split at h
  · rename_i r hr
    exact ⟨r, List.mem_of_find?_eq_some hr, by simpa using List.find?_some hr, Except.ok.inj h⟩
  · cases h

/-- A byte is a command of a map iff without bit 0 it is one of the map's write forms, which is what READ and WRITE ask of their
operand (R87, R88). -/
theorem validAddr_iff_decodes (m : RegMap) (c : Byte) : validAddr m c = true ↔ ∃ i, decodeCommand m c = .ok i := by
  rw [validAddr, List.contains_iff_mem, ← commandTable_writeForms, List.mem_map]
  constructor
  · rintro ⟨r, hr, hc⟩
    have hf : ((commandTable m).find? (fun r => r.writeForm == (c &&& 0xFE))).isSome = true :=
      List.find?_isSome.mpr ⟨r, hr, by simp [hc]⟩
    obtain ⟨q, hq⟩ := Option.isSome_iff_exists.mp hf
    exact ⟨_, by rw [decodeCommand, hq]⟩
  · rintro ⟨i, hi⟩
    obtain ⟨r, hr, hc, -⟩ := decodeCommand_eq_ok hi
    exact ⟨r, hr, hc⟩

/-- Under the default map the valid operands are those of the ranges R87 gives. -/
theorem validAddr_default (c : Byte) : validAddr Config.regMap c = true ↔
    (c.getLsbD 7 = true ∧ (commandSpace c = true ∨ (commandIndex c).toNat ≤ 8 ∨ commandIndex c = 31)) := by
  revert c
  decide

/-- A byte with bit 7 set is the command byte of its fields (R80, R83). -/
theorem commandByte_of_fields (c : Byte) (h : c.getLsbD 7 = true) :
    commandByte (BitVec.ofBool (commandSpace c)) (commandIndex c) (BitVec.ofBool (commandIsRead c)) = c := by
  revert c
  decide

/-- Where no two names share a byte, the row that is found for a row's write form is that row. -/
theorem find_row {m : RegMap} (h : m.writeForms.Nodup) {r : CommandRow} (hr : r ∈ commandTable m) :
    (commandTable m).find? (fun q => q.writeForm == r.writeForm) = some r := by
  rw [← commandTable_writeForms] at h
  obtain ⟨q, hq⟩ := Option.isSome_iff_exists.mp
    (List.find?_isSome (p := fun q => q.writeForm == r.writeForm).mpr ⟨r, hr, beq_self_eq_true _⟩)
  have hqr : q.writeForm = r.writeForm := by simpa using List.find?_some hq
  rw [hq, List.inj_on_of_nodup_map h (List.mem_of_find?_eq_some hq) hr hqr]

/-- Under a map that meets `RegMap.wf`, either form of a row decodes to its instruction. -/
theorem decodeCommand_row {m : RegMap} (hm : m.wf = true) {r : CommandRow} (hr : r ∈ commandTable m) (read : Bool) :
    decodeCommand m (if read then r.writeForm ||| 0x01 else r.writeForm) = .ok (r.make read) := by
  simp only [RegMap.wf, Bool.and_eq_true, decide_eq_true_eq, List.all_eq_true] at hm
  obtain ⟨⟨⟨⟨-, hnodup⟩, hbits⟩, -⟩, -⟩ := hm
  have hmem : r.writeForm ∈ m.writeForms := commandTable_writeForms m ▸ List.mem_map_of_mem hr
  have heven : r.writeForm.getLsbD 0 = false := by simpa using (hbits _ hmem).2
  obtain ⟨hform, hread⟩ := forms_of_even heven read
  rw [decodeCommand, hform, hread, find_row hnodup hr]

end Sys2Proof

/-! ### The statements -/

namespace Sys2Proof.Proofs

open Sys2Proof Sys2Proof.Machine

/-- Settles O1: a request by its three bytes, a command by the row of the map that makes it. -/
theorem decodeOfEncodeIsTheInstruction : Obligations.DecodeOfEncodeIsTheInstruction := by
  intro m i hm hi
  rcases isRequest_or_hasRow m hi with ⟨op, addr, wdata, payload, hlen, rfl⟩ | ⟨r, hr, read, rfl⟩
  · rw [encodeWith_decodeRequest m addr wdata hlen]
    exact decodeWith_requestBytes m op addr wdata hlen
  · rw [encodeWith_make hr]
    exact decodeCommand_row hm hr read

/-- Settles O2, by the forms of bytes that decode: one command byte, or a request word and its payload. -/
theorem decodedBytesAreTheEncoding : Obligations.DecodedBytesAreTheEncoding := by
  intro m bytes i h
  unfold decodeWith at h
  split at h
  · cases h
  · rename_i c
    obtain ⟨r, hr, hform, rfl⟩ := decodeCommand_eq_ok h
    rw [encodeWith_make hr, hform, commandByte_split]
    exact ⟨rfl, make_wellFormed hr _⟩
  · cases h
  · rename_i b0 b1 b2 payload
    split at h
    · rename_i hb2
      obtain ⟨h0, h1, h2⟩ := bytes_of_their_word b0 b1 b2 hb2
      unfold decodeWord at h
      split at h
      · rename_i hlen
        obtain rfl := Except.ok.inj h
        refine ⟨?_, decodeRequest_wellFormed _ _ hlen⟩
        rw [encodeWith_decodeRequest m _ _ hlen, requestBytes, requestWord_of_fields]
        simp only [h0, h1, h2, List.cons_append, List.nil_append]
      · cases h
    · cases h

/-- Settles O4: the bytes of the default map are gone through, and the other two clauses hold of every map. -/
theorem commandBytesAreClassified : Obligations.CommandBytesAreClassified := by
  intro c
  refine ⟨(validAddr_iff_decodes Config.regMap c).symm.trans (validAddr_default c), fun i hi => ?_,
    fun m => validAddr_iff_decodes m c⟩
  have hvalid : validAddr Config.regMap c = true := (validAddr_iff_decodes _ c).mpr ⟨i, hi⟩
  rw [commandByte_of_fields c ((validAddr_default c).mp hvalid).1]
  exact (decodedBytesAreTheEncoding Config.regMap [c] i hi).1

end Sys2Proof.Proofs


/-! PROOFS. The instructions, each as a request that a ready engine answers or a command that the peripheral takes (30_encoding.md R80, R90);
and that no move of a busy machine reads the request port (10_state.md R25). -/

namespace Sys2Proof.Machine

open Sys2Proof

/-! ### What exec does -/

/-- An empty list of cells has no index. -/
theorem cells_below_nil {α : Type} (n : Nat) : Cells.below ([] : Cells α) n := nofun

/-- The payload's cells have indexes of the burst buffer. -/
theorem payloadCells_below (n : Nat) (payload : List Byte) : Cells.below (payloadCells n payload) 31 := cellsOf_below _

/-- How a ready engine answers a request: accepted or rejected as the parameters say, and with what (R25, R201). -/
structure Answer where
  valid  : Params → Bool
  op     : HostOp
  cmd    : Params → Byte
  tx     : Byte
  buf    : Memory
  status : Status

/-- The state an answer leaves. -/
def Answer.give (a : Answer) (s : State) : State :=
  if a.valid s.params then s.accept a.op (a.cmd s.params) a.tx a.buf else s.reject a.status

/-- An instruction is a command that the peripheral takes. -/
def TakenAs (i : Instr) (rc : Bool) (index : Nat) (isRead : Bool) : Prop :=
  (index = 31 ∨ cellExists (cellOf rc index) = true) ∧ ∀ s, exec i s = takeCommand rc index isRead s

/-- An instruction is a request that a ready engine answers. -/
def AnsweredBy (i : Instr) (a : Answer) : Prop :=
  (Memory.wf a.buf = true ∧ Cells.below a.buf 31) ∧ ∀ s, exec i s = onRequest s (a.give s)

theorem takenAs_clock {i : Instr} {k : Nat} {isRead : Bool} (hk : k ≤ 8)
    (h : ∀ s, exec i s = takeCommand false k isRead s) : TakenAs i false k isRead :=
  ⟨.inr (by simp [cellExists, cellOf, hk]), h⟩

theorem takenAs_burst {i : Instr} {rc isRead : Bool} (h : ∀ s, exec i s = takeCommand rc 31 isRead s) :
    TakenAs i rc 31 isRead := ⟨.inl rfl, h⟩

theorem takenAs_ram {i : Instr} {n : BitVec 5} {isRead : Bool} (h : ∀ s, exec i s = takeCommand true n.toNat isRead s) :
    TakenAs i true n.toNat isRead := by
  refine ⟨?_, h⟩
  have hn := n.isLt
  simp only [cellExists, cellOf, if_true, Bool.or_eq_true, Bool.and_eq_true, decide_eq_true_eq]
  omega

theorem answeredBy_empty {i : Instr} {valid : Params → Bool} {op : HostOp} {cmd : Params → Byte} {tx : Byte} {st : Status}
    (h : ∀ s, exec i s = onRequest s ((Answer.mk valid op cmd tx [] st).give s)) : ∃ a, AnsweredBy i a :=
  ⟨_, ⟨rfl, cells_below_nil 31⟩, h⟩

theorem answeredBy_payload {i : Instr} {valid : Params → Bool} {op : HostOp} {cmd : Params → Byte} {tx : Byte} {st : Status}
    {n : Nat} {payload : List Byte}
    (h : ∀ s, exec i s = onRequest s ((Answer.mk valid op cmd tx (payloadCells n payload) st).give s)) :
    ∃ a, AnsweredBy i a :=
  ⟨_, ⟨payloadCells_wf n payload, payloadCells_below n payload⟩, h⟩

/-- Every instruction is a command that the peripheral takes or a request that a ready engine answers. -/
theorem takenAs_or_answeredBy (i : Instr) : (∃ rc index isRead, TakenAs i rc index isRead) ∨ ∃ a, AnsweredBy i a := by
  cases i with
  | read a w =>
    exact .inr (answeredBy_empty (valid := fun p => validAddr p.regMap a) (op := .read) (cmd := fun _ => readCommand a)
      (tx := w) (st := .invalidAddress) fun _ => rfl)
  | write a w =>
    exact .inr (answeredBy_empty (valid := fun p => validAddr p.regMap a) (op := .write) (cmd := fun _ => writeCommand a)
      (tx := w) (st := .invalidAddress) fun _ => rfl)
  | burstReadClock a w =>
    exact .inr (answeredBy_empty (valid := fun _ => true) (op := .burstReadClock)
      (cmd := fun p => readCommand p.regMap.clockBurst) (tx := w) (st := .ok) fun _ => rfl)
  | burstWriteClock a w p =>
    exact .inr (answeredBy_payload (valid := fun _ => true) (op := .burstWriteClock)
      (cmd := fun p => writeCommand p.regMap.clockBurst) (tx := w) (st := .ok) fun _ => rfl)
  | burstReadRam a w =>
    exact .inr (answeredBy_empty (valid := fun p => p.hasRamBurst) (op := .burstReadRam)
      (cmd := fun p => readCommand p.regMap.ramBurst) (tx := w) (st := .invalidOperation) fun _ => rfl)
  | burstWriteRam a w p =>
    exact .inr (answeredBy_payload (valid := fun p => p.hasRamBurst) (op := .burstWriteRam)
      (cmd := fun p => writeCommand p.regMap.ramBurst) (tx := w) (st := .invalidOperation) fun _ => rfl)
  | reservedOp6 a w =>
    exact .inr (answeredBy_empty (valid := fun _ => false) (op := .read) (cmd := fun _ => 0) (tx := 0)
      (st := .invalidOperation) fun _ => rfl)
  | reservedOp7 a w =>
    exact .inr (answeredBy_empty (valid := fun _ => false) (op := .read) (cmd := fun _ => 0) (tx := 0)
      (st := .invalidOperation) fun _ => rfl)
  | cmdWriteSeconds => exact .inl ⟨_, 0, _, takenAs_clock (by decide) fun _ => rfl⟩
  | cmdReadSeconds => exact .inl ⟨_, 0, _, takenAs_clock (by decide) fun _ => rfl⟩
  | cmdWriteMinutes => exact .inl ⟨_, 1, _, takenAs_clock (by decide) fun _ => rfl⟩
  | cmdReadMinutes => exact .inl ⟨_, 1, _, takenAs_clock (by decide) fun _ => rfl⟩
  | cmdWriteHours => exact .inl ⟨_, 2, _, takenAs_clock (by decide) fun _ => rfl⟩
  | cmdReadHours => exact .inl ⟨_, 2, _, takenAs_clock (by decide) fun _ => rfl⟩
  | cmdWriteDate => exact .inl ⟨_, 3, _, takenAs_clock (by decide) fun _ => rfl⟩
  | cmdReadDate => exact .inl ⟨_, 3, _, takenAs_clock (by decide) fun _ => rfl⟩
  | cmdWriteMonth => exact .inl ⟨_, 4, _, takenAs_clock (by decide) fun _ => rfl⟩
  | cmdReadMonth => exact .inl ⟨_, 4, _, takenAs_clock (by decide) fun _ => rfl⟩
  | cmdWriteWeekday => exact .inl ⟨_, 5, _, takenAs_clock (by decide) fun _ => rfl⟩
  | cmdReadWeekday => exact .inl ⟨_, 5, _, takenAs_clock (by decide) fun _ => rfl⟩
  | cmdWriteYear => exact .inl ⟨_, 6, _, takenAs_clock (by decide) fun _ => rfl⟩
  | cmdReadYear => exact .inl ⟨_, 6, _, takenAs_clock (by decide) fun _ => rfl⟩
  | cmdWriteControl => exact .inl ⟨_, 7, _, takenAs_clock (by decide) fun _ => rfl⟩
  | cmdReadControl => exact .inl ⟨_, 7, _, takenAs_clock (by decide) fun _ => rfl⟩
  | cmdWriteTrickle => exact .inl ⟨_, 8, _, takenAs_clock (by decide) fun _ => rfl⟩
  | cmdReadTrickle => exact .inl ⟨_, 8, _, takenAs_clock (by decide) fun _ => rfl⟩
  | cmdWriteRam n => exact .inl ⟨_, n.toNat, _, takenAs_ram fun _ => rfl⟩
  | cmdReadRam n => exact .inl ⟨_, n.toNat, _, takenAs_ram fun _ => rfl⟩
  | cmdWriteClockBurst => exact .inl ⟨_, 31, _, takenAs_burst fun _ => rfl⟩
  | cmdReadClockBurst => exact .inl ⟨_, 31, _, takenAs_burst fun _ => rfl⟩
  | cmdWriteRamBurst => exact .inl ⟨_, 31, _, takenAs_burst fun _ => rfl⟩
  | cmdReadRamBurst => exact .inl ⟨_, 31, _, takenAs_burst fun _ => rfl⟩

/-- A busy engine does nothing with a request, and a command changes the peripheral alone. -/
theorem exec_next {i : Instr} {s t : State} (h : exec i s = .next t) :
    t = s ∨
    (∃ rc index isRead, (index = 31 ∨ cellExists (cellOf rc index) = true) ∧
      t = { s with periph := s.periph.takeCommand rc index isRead }) ∨
    (s.reqReady = true ∧ ∃ op cmd tx buf, (Memory.wf buf = true ∧ Cells.below buf 31) ∧ t = s.accept op cmd tx buf) ∨
    (s.reqReady = true ∧ ∃ st, t = s.reject st) := by
  rcases takenAs_or_answeredBy i with ⟨rc, index, isRead, hcell, hi⟩ | ⟨a, hbuf, hi⟩ <;> rw [hi] at h
  · rcases takeCommand_cases rc index isRead s with ⟨-, hc⟩ | ⟨-, hc⟩ <;> obtain rfl := Host.Outcome.next.inj (hc ▸ h)
    · exact .inl rfl
    · exact .inr (.inl ⟨rc, index, isRead, hcell, rfl⟩)
  · rcases onRequest_cases s (a.give s) with ⟨hr, hc⟩ | ⟨-, hc⟩ <;> obtain rfl := Host.Outcome.next.inj (hc ▸ h)
    · cases hv : a.valid s.params
      · exact .inr (.inr (.inr ⟨hr, _, by rw [Answer.give, hv]; rfl⟩))
      · exact .inr (.inr (.inl ⟨hr, _, _, _, _, hbuf, by rw [Answer.give, hv]; rfl⟩))
    · exact .inl rfl

/-! ### No move of a busy machine reads the port -/

/-- The state with another request port. -/
def State.withPort (s : State) (p : Port) : State := { s with port := p }

@[simp] theorem withPort_reqReady (s : State) (p : Port) : (s.withPort p).reqReady = s.reqReady := rfl
@[simp] theorem withPort_params (s : State) (p : Port) : (s.withPort p).params = s.params := rfl
@[simp] theorem withPort_periph (s : State) (p : Port) : (s.withPort p).periph = s.periph := rfl
@[simp] theorem withPort_aborted (s : State) (p : Port) : (s.withPort p).aborted = s.aborted := rfl
@[simp] theorem withPort_waitCtr (s : State) (p : Port) : (s.withPort p).waitCtr = s.waitCtr := rfl
@[simp] theorem withPort_pos (s : State) (p : Port) : (s.withPort p).pos = s.pos := rfl
@[simp] theorem withPort_initPending (s : State) (p : Port) : (s.withPort p).initPending = s.initPending := rfl
@[simp] theorem withPort_initSecond (s : State) (p : Port) : (s.withPort p).initSecond = s.initSecond := rfl
@[simp] theorem withPort_opInHand (s : State) (p : Port) : (s.withPort p).opInHand = s.opInHand := rfl
@[simp] theorem withPort_operationTrace (s : State) (p : Port) : (s.withPort p).operationTrace = s.operationTrace := rfl

@[simp] theorem mapNext_next (s : State) (f : State → State) : mapNext (.next s) f = .next (f s) := rfl

theorem give_withPort (a : Answer) (s : State) (p : Port) : a.give (s.withPort p) = (a.give s).withPort p := by
  cases hv : a.valid s.params <;> simp only [Answer.give, withPort_params, hv] <;> rfl

theorem exec_withPort (i : Instr) (s : State) (p : Port) :
    exec i (s.withPort p) = mapNext (exec i s) (fun t => t.withPort p) := by
  rcases takenAs_or_answeredBy i with ⟨rc, index, isRead, -, hi⟩ | ⟨a, -, hi⟩ <;> rw [hi, hi]
  · cases hk : s.periph.kind <;> simp only [takeCommand, withPort_periph, hk] <;> rfl
  · cases hr : s.reqReady <;> simp [onRequest, hr, give_withPort]

theorem emit_withPort (e : Event) (s : State) (p : Port) : emit e (s.withPort p) = (emit e s).withPort p := by
  cases ha : s.aborted <;> cases e <;> simp only [emit, applyEvent, State.afterAbort, withPort_aborted, ha] <;> rfl

theorem performEntry_withPort (e : Entry) (s : State) (p : Port) :
    performEntry e (s.withPort p) = (performEntry e s).withPort p := by
  have hmark : e.mark (s.withPort p) = (e.mark s).withPort p := rfl
  rw [performEntry, hmark, emit_withPort, performEntry]
  cases e.dest <;> rfl

theorem complete_withPort (s : State) (p : Port) : (s.withPort p).complete = s.complete.withPort p := by
  cases hi : s.initPending <;> cases ho : s.opInHand <;>
    simp only [State.complete, withPort_initPending, withPort_opInHand, hi, ho] <;> rfl

theorem sequencerStep_withPort (s : State) (p : Port) : sequencerStep (s.withPort p) = (sequencerStep s).withPort p := by
  have hread : ∀ b, (s.withPort p).noteRead b = (s.noteRead b).withPort p := fun _ => rfl
  have hnext : nextEvent (s.withPort p) = (nextEvent s).withPort p := by
    simp only [nextEvent, withPort_operationTrace, withPort_pos, hread, performEntry_withPort, complete_withPort]
    cases s.operationTrace[s.pos]? <;> rfl
  simp only [sequencerStep, withPort_waitCtr, hnext]
  rcases s.waitCtr with _ | _ | n <;> rfl

theorem beginInit_withPort (s : State) (p : Port) : (s.withPort p).beginInit = s.beginInit.withPort p := by
  cases hs : s.initSecond <;> simp only [State.beginInit, withPort_initSecond, hs] <;> rfl

theorem badCommand_withPort (s : State) (p : Port) :
    (s.withPort p).badCommand = mapNext s.badCommand (fun t => t.withPort p) := by
  cases hk : s.periph.kind <;> cases ha : s.aborted <;>
    simp only [State.badCommand, withPort_periph, withPort_aborted, hk, ha] <;> rfl

/-- While the engine is busy the port does not say whose move it is (R25). -/
theorem turn_withPort {s : State} (h : s.reqReady = false) (p : Port) : (s.withPort p).turn = s.turn := by
  simp only [State.turn, withPort_reqReady, h, Bool.false_and]
  rfl

/-- After the host's turn, two states that differed in the port alone differ in the host's own fields alone. -/
theorem hostTurn_withPort {taken : Bool} {s a : State} (h : a = hostTurn taken s) (p : Port) :
    { hostTurn taken (s.withPort p) with
      port := a.port, rst := a.rst, cfgInitClear := a.cfgInitClear, script := a.script } = a := by
  obtain ⟨_, _, _, _, h₁⟩ := hostTurn_engine taken s
  obtain ⟨_, _, _, _, h₂⟩ := hostTurn_engine taken (s.withPort p)
  rw [h, h₁, h₂]
  rfl

end Sys2Proof.Machine

namespace Sys2Proof.Proofs

open Sys2Proof Sys2Proof.Machine

/-- Settles O16: whose move it is does not depend on the port of a busy engine, and each move commutes with a change of it. -/
theorem requestSignalsDoNotMatterWhileBusy : Obligations.RequestSignalsDoNotMatterWhileBusy := by
  intro s a p hbusy hstep
  have hturn := turn_withPort hbusy p
  rcases step_cases hstep with ⟨ht, ha⟩ | ⟨i, u, ht, hu, ha⟩ | ⟨u, ht, hu, ha⟩ | ⟨ht, ha⟩ | ⟨ht, ha⟩ |
      ⟨i, u, ht, hu, ha⟩ | ⟨ht, ha⟩ <;>
    refine ⟨_, ?_, hostTurn_withPort ha p⟩ <;> change step (s.withPort p) = _ <;> rw [step, hturn, ht]
  case inl => rfl
  case inr.inl => simp only [exec_withPort, hu, mapNext_next]
  case inr.inr.inl => simp only [badCommand_withPort, hu, mapNext_next]
  case inr.inr.inr.inl => simp only [sequencerStep_withPort]
  case inr.inr.inr.inr.inl => simp only [beginInit_withPort]
  case inr.inr.inr.inr.inr.inl => simp only [exec_withPort, hu, mapNext_next]

end Sys2Proof.Proofs


/-! PROOFS. The memories stay canonical (10_state.md R26, R27; 20_memory.md R61, R62): each operation of the peripheral and of the engine
keeps them so, and therefore each step does. -/

namespace Sys2Proof.Machine

open Sys2Proof

/-! ### Addresses that exist -/

/-- The byte at a pointer below the limit of a burst exists (R61, R62, R67). -/
theorem cellExists_of_lt_limit {p : Periph} (hb : p.burst = true) (h : p.ptr < p.limit) :
    cellExists (cellOf p.rc p.ptr) = true := by
  cases hr : p.rc <;>
    simp only [Periph.limit, hb, hr, Config.ramBurstLen, Config.clockBurstLen, if_true, Bool.false_eq_true, if_false] at h <;>
    simp only [cellExists, cellOf, if_true, Bool.false_eq_true, if_false, Bool.or_eq_true, Bool.and_eq_true,
      decide_eq_true_eq] <;>
    omega

/-! ### The peripheral -/

/-- The peripheral's three memories are canonical and hold only indexes that exist. -/
def Periph.MemoriesOk (p : Periph) : Prop :=
  (Memory.wf p.store = true ∧ ∀ kv ∈ p.store, cellExists kv.1 = true) ∧
  (Memory.wf p.snapshot = true ∧ Cells.below p.snapshot 8) ∧
  (Memory.wf p.staged = true ∧ Cells.below p.staged 8)

/-- A single byte on its way in is addressed to a register that exists. -/
def Periph.Addressed (p : Periph) : Prop :=
  p.mode = .wdata → p.burst = false → cellExists (cellOf p.rc p.ptr) = true

/-- The peripheral's part of `MemoriesCanonical`. -/
def Periph.Canonical (p : Periph) : Prop := p.MemoriesOk ∧ p.Addressed

theorem put_memoriesOk {p : Periph} (h : p.MemoriesOk) {a : Nat} (ha : cellExists a = true) (v : Byte) :
    (p.put a v).MemoriesOk := by
  obtain ⟨⟨hwf, hall⟩, hsnap, hstaged⟩ := h
  exact ⟨⟨memory_wf_write hwf a v, cells_forall_write (P := fun a => cellExists a = true) hall ha v⟩, hsnap, hstaged⟩

theorem putAll_memoriesOk {as : List Nat} (has : ∀ a ∈ as, cellExists a = true) (f : Nat → Byte) {p : Periph}
    (h : p.MemoriesOk) : (p.putAll as f).MemoriesOk := by
  induction as generalizing p with
  | nil => exact h
  | cons a rest ih =>
    have hput := put_memoriesOk h (has a List.mem_cons_self) (f a)
    exact ih (fun b hb => has b (List.mem_cons_of_mem a hb)) hput

theorem writeReg_memoriesOk {p : Periph} (h : p.MemoriesOk) {a : Nat} (ha : cellExists a = true) (v : Byte) :
    (p.writeReg a v).MemoriesOk := by
  unfold Periph.writeReg
  split
  · split <;> exact put_memoriesOk h ha _
  · exact put_memoriesOk h ha v
  · exact h

theorem stage_memoriesOk {p : Periph} (h : p.MemoriesOk) {k : Nat} (hk : k < 8) (v : Byte) :
    Periph.MemoriesOk { p with staged := Cells.write p.staged k v } := by
  obtain ⟨hstore, hsnap, hwf, hbelow⟩ := h
  exact ⟨hstore, hsnap, memory_wf_write hwf k v, cells_forall_write (P := fun k => k < 8) hbelow hk v⟩

theorem unstage_memoriesOk {p : Periph} (h : p.MemoriesOk) : Periph.MemoriesOk { p with staged := [] } :=
  ⟨h.1, h.2.1, rfl, cells_below_nil 8⟩

theorem commitStaged_memoriesOk {p : Periph} (h : p.MemoriesOk) : p.commitStaged.MemoriesOk :=
  unstage_memoriesOk (putAll_memoriesOk (by decide) _ h)

theorem dropStaged_memoriesOk {p : Periph} (h : p.MemoriesOk) : p.dropStaged.MemoriesOk := by
  unfold Periph.dropStaged
  split
  · exact h
  · exact unstage_memoriesOk (putAll_memoriesOk (by decide) _ h)

/-- The frozen record lists the eight registers of a clock burst. -/
theorem clockSnapshot_canonical (p : Periph) : Memory.wf p.clockSnapshot = true ∧ Cells.below p.clockSnapshot 8 :=
  ⟨rfl, by
    intro kv hkv
    obtain ⟨a, ha, rfl⟩ := List.mem_map.mp hkv
    exact List.mem_range.mp ha⟩

theorem enable_canonical {p : Periph} (h : p.Canonical) : p.enable.Canonical := by
  unfold Periph.enable
  split
  · exact ⟨putAll_memoriesOk (p := { p with txn := p.txn + 1 }) (by decide) _ h.1, nofun⟩
  · exact ⟨h.1, nofun⟩
  · exact h

theorem disable_canonical {p : Periph} (h : p.Canonical) : p.disable.Canonical := by
  unfold Periph.disable
  split
  · exact ⟨dropStaged_memoriesOk h.1, nofun⟩
  · exact ⟨h.1, nofun⟩
  · exact h

theorem shiftIn_canonical {p : Periph} (h : p.Canonical) (b : Bool) : (p.shiftIn b).Canonical := h

/-- In a burst no single byte is on its way in. -/
theorem addressed_of_burst {p : Periph} (h : p.burst = true) : p.Addressed :=
  fun _ hb => absurd (h.symm.trans hb) (by decide)

theorem advancePtr_canonical {p : Periph} (h : p.Canonical) : p.advancePtr.Canonical := by
  unfold Periph.advancePtr
  split
  · rename_i hb
    exact ⟨h.1, addressed_of_burst hb⟩
  · exact h

/-- The cell a data byte goes to exists, in a burst below the limit and in a single transfer. -/
theorem cellExists_of_receiving {p : Periph} (h : p.Addressed) (hm : p.mode = .wdata) (hp : p.ptr < p.limit) :
    cellExists (cellOf p.rc p.ptr) = true := by
  cases hb : p.burst
  · exact h hm hb
  · exact cellExists_of_lt_limit hb hp

theorem writeReg_canonical {p : Periph} (h : p.Canonical) {a : Nat} (ha : cellExists a = true) (v : Byte) :
    (p.writeReg a v).Canonical := by
  refine ⟨writeReg_memoriesOk h.1 ha v, ?_⟩
  obtain ⟨m, hm⟩ := writeReg_frame p a v
  rw [hm]
  exact h.2

theorem chipByteIn_canonical {p : Periph} (h : p.Canonical) (hm : p.mode = .wdata) : p.chipByteIn.Canonical := by
  unfold Periph.chipByteIn
  split
  · rename_i hb
    split
    · rename_i hp
      split
      · exact advancePtr_canonical (writeReg_canonical h (cellExists_of_lt_limit hb hp) _)
      · rename_i hr
        have hlt : p.ptr < 8 := by simpa [Periph.limit, hb, hr, Config.clockBurstLen] using hp
        have hstage := stage_memoriesOk h.1 hlt p.shift
        apply advancePtr_canonical
        split
        · refine ⟨commitStaged_memoriesOk hstage, addressed_of_burst ?_⟩
          obtain ⟨m, hput⟩ := putAll_frame { p with staged := Cells.write p.staged p.ptr p.shift }
            (List.range Config.clockBurstLen) _
          rw [Periph.commitStaged, hput]
          exact hb
        · exact ⟨hstage, h.2⟩
    · exact h
  · rename_i hb
    exact ⟨writeReg_memoriesOk h.1 (h.2 hm (by simpa using hb)) _, nofun⟩

theorem responderByteIn_canonical {p : Periph} (h : p.Canonical) (hm : p.mode = .wdata) :
    p.responderByteIn.Canonical := by
  unfold Periph.responderByteIn
  apply advancePtr_canonical
  split
  · rename_i hp
    exact ⟨put_memoriesOk h.1 (cellExists_of_receiving h.2 hm hp) _, h.2⟩
  · exact h

theorem byteIn_canonical {p : Periph} (h : p.Canonical) (hm : p.mode = .wdata) : p.byteIn.Canonical := by
  unfold Periph.byteIn
  split
  · exact chipByteIn_canonical (p := { p with nbits := 0 }) h hm
  · exact responderByteIn_canonical (p := { p with nbits := 0 }) h hm
  · exact h

theorem rise_canonical {p : Periph} (h : p.Canonical) (level : Bool) : (p.rise level).Canonical := by
  unfold Periph.rise
  split
  · exact h
  · split
    · exact shiftIn_canonical h level
    · exact h
  · rename_i hm _
    split
    · exact byteIn_canonical (shiftIn_canonical h level) hm
    · exact shiftIn_canonical h level
  · exact h
  · exact h
  · exact h

/-- Counting a bit out: at the eighth the count starts again, a burst moves the pointer, and the chip's single read is over (R223,
log 16). -/
theorem countOut_eq (p : Periph) :
    p.countOut = { p with
      nbits := if p.nbits + 1 = 8 then 0 else p.nbits + 1,
      ptr := if p.nbits + 1 = 8 ∧ p.burst = true then p.ptr + 1 else p.ptr,
      mode := if p.nbits + 1 = 8 ∧ p.kind = .chip ∧ p.burst = false then .ignore else p.mode } := by
  unfold Periph.countOut Periph.advancePtr
  by_cases h8 : p.nbits + 1 = 8
  · cases hb : p.burst
    · cases p.kind <;> simp [h8]
    · cases p.kind <;> simp [h8]
  · simp [h8]

/-- What a falling edge can change: the peripheral's driver and, in a mode that does not receive, where it stands in the transfer. -/
theorem fall_frame (p : Periph) :
    p.fall = p ∨ ∃ nbits ptr drive driveBit mode,
      p.fall = { p with nbits := nbits, ptr := ptr, drive := drive, driveBit := driveBit, mode := mode } ∧
        mode ≠ .wdata := by
  unfold Periph.fall
  split
  · exact .inl rfl
  · rename_i hm _
    have hmode : ∀ c : Prop, [Decidable c] → (if c then PeriphMode.ignore else p.mode) ≠ .wdata := fun c _ => by
      rw [hm]
      split <;> decide
    split <;> rw [countOut_eq] <;> exact .inr ⟨_, _, _, _, _, rfl, hmode _⟩
  · rename_i hm
    exact .inr ⟨_, _, _, _, _, rfl, by rw [hm]; decide⟩
  all_goals exact .inl rfl

theorem fall_canonical {p : Periph} (h : p.Canonical) : p.fall.Canonical := by
  rcases fall_frame p with hf | ⟨_, _, _, _, _, hf, hm⟩ <;> rw [hf]
  · exact h
  · exact ⟨h.1, fun hc => absurd hc hm⟩

theorem takeCommand_canonical {p : Periph} (h : p.Canonical) {rc : Bool} {index : Nat} (isRead : Bool)
    (hcell : index = 31 ∨ cellExists (cellOf rc index) = true) : (p.takeCommand rc index isRead).Canonical := by
  obtain ⟨⟨hstore, hsnap, hstaged⟩, -⟩ := h
  refine ⟨⟨hstore, ?_, hstaged⟩, fun _ hb => ?_⟩
  · rw [periph_takeCommand_snapshot]
    split
    · exact clockSnapshot_canonical p
    · exact hsnap
  · have hne : index ≠ 31 := by simpa using hb
    simpa [hne] using hcell

theorem ignoreCommand_canonical {p : Periph} (h : p.Canonical) : p.ignoreCommand.Canonical := ⟨h.1, nofun⟩

/-- A pointer drawn for an aborted peripheral is that of a register (log 17). -/
theorem cellExists_of_drawn (rc : Bool) (n : Nat) : cellExists (cellOf rc (if rc then n % 31 else n % 9)) = true := by
  cases rc <;>
    simp only [cellExists, cellOf, if_true, Bool.false_eq_true, if_false, Bool.or_eq_true, Bool.and_eq_true,
      decide_eq_true_eq] <;>
    omega

theorem scramble_canonical {p : Periph} (h : p.Canonical) (n : Nat) : (p.scramble n).Canonical := by
  unfold Periph.scramble
  split
  · exact h
  all_goals
    exact ⟨⟨⟨rfl, nofun⟩, ⟨rfl, cells_below_nil 8⟩, ⟨rfl, cells_below_nil 8⟩⟩, fun _ _ => cellExists_of_drawn _ _⟩

theorem atReset_canonical {p : Periph} (h : p.Canonical) (ce abort : Bool) (n : Nat) :
    (p.atReset ce abort n).Canonical := by
  unfold Periph.atReset
  split
  · exact scramble_canonical h n
  · split
    · exact disable_canonical h
    · exact h

/-! ### The engine -/

/-- `rx`, `buf` and `rsp_rbuf` are canonical and hold only indexes that exist. -/
def State.EngineMemoriesOk (s : State) : Prop :=
  (Cells.wf s.rx = true ∧ Cells.below s.rx 8) ∧ (Memory.wf s.buf = true ∧ Cells.below s.buf 31) ∧
  (Memory.wf s.rspRbuf = true ∧ Cells.below s.rspRbuf 31)

/-- The canonical form of every memory is the engine's and the peripheral's. -/
theorem memoriesCanonical_iff (s : State) : s.MemoriesCanonical ↔ s.EngineMemoriesOk ∧ s.periph.Canonical := by
  constructor
  · rintro ⟨hrx, hbuf, hrbuf, hstore, hsnap, hstaged, haddr⟩
    exact ⟨⟨hrx, hbuf, hrbuf⟩, ⟨hstore, hsnap, hstaged⟩, haddr⟩
  · rintro ⟨⟨hrx, hbuf, hrbuf⟩, ⟨hstore, hsnap, hstaged⟩, haddr⟩
    exact ⟨hrx, hbuf, hrbuf, hstore, hsnap, hstaged, haddr⟩

theorem hostTurn_canonical {s : State} (h : s.MemoriesCanonical) (taken : Bool) :
    (hostTurn taken s).MemoriesCanonical := by
  obtain ⟨_, _, _, _, ht⟩ := hostTurn_engine taken s
  rw [ht]
  exact h

theorem withPeriph_canonical {s : State} (h : s.MemoriesCanonical) {p : Periph} (hp : p.Canonical) :
    State.MemoriesCanonical { s with periph := p } :=
  (memoriesCanonical_iff _).mpr ⟨((memoriesCanonical_iff s).mp h).1, hp⟩

theorem applyEvent_canonical {s : State} (h : s.MemoriesCanonical) (e : Event) : (applyEvent e s).MemoriesCanonical := by
  obtain ⟨⟨⟨hrx, hrxb⟩, hbuf, hrbuf⟩, hp⟩ := (memoriesCanonical_iff s).mp h
  cases e with
  | ce level =>
    refine (memoriesCanonical_iff _).mpr ⟨⟨⟨hrx, hrxb⟩, hbuf, hrbuf⟩, ?_⟩
    cases level
    · exact disable_canonical hp
    · exact enable_canonical hp
  | clk level =>
    refine (memoriesCanonical_iff _).mpr ⟨⟨⟨hrx, hrxb⟩, hbuf, hrbuf⟩, ?_⟩
    simp only [applyEvent]
    split
    · exact rise_canonical hp _
    · split
      · exact fall_canonical hp
      · exact hp
  | dout level => exact h
  | dir d => exact h
  | sample k =>
    exact (memoriesCanonical_iff _).mpr
      ⟨⟨⟨cells_wf_write hrx _ _, cells_forall_write (P := fun i => i < 8) hrxb k.isLt _⟩, hbuf, hrbuf⟩, hp⟩
  | wait d => exact h

theorem emit_canonical {s : State} (h : s.MemoriesCanonical) (e : Event) : (emit e s).MemoriesCanonical := by
  have happ := applyEvent_canonical h e
  change (State.afterAbort (applyEvent e s)).MemoriesCanonical
  unfold State.afterAbort
  split
  · exact withPeriph_canonical happ (scramble_canonical ((memoriesCanonical_iff _).mp happ).2 _)
  · exact happ

theorem deliver_canonical {s : State} (h : s.MemoriesCanonical) (dest : Dest) : (deliver dest s).MemoriesCanonical := by
  obtain ⟨⟨hrx, ⟨hbuf, hbufb⟩, hrbuf⟩, hp⟩ := (memoriesCanonical_iff s).mp h
  cases dest with
  | nowhere => exact h
  | rdata => exact h
  | buf k =>
    exact (memoriesCanonical_iff _).mpr
      ⟨⟨hrx, ⟨memory_wf_write hbuf _ _, cells_forall_write (P := fun i => i < 31) hbufb k.isLt _⟩, hrbuf⟩, hp⟩

theorem performEntry_canonical {s : State} (h : s.MemoriesCanonical) (e : Entry) :
    (performEntry e s).MemoriesCanonical :=
  deliver_canonical (emit_canonical (s := e.mark s) h e.event) e.dest

/-- The bytes of a burst, read from `buf`, are canonical cells of `rsp_rbuf`. -/
theorem readRange_canonical (m : Memory) (n : Nat) :
    Memory.wf (cellsOf (readRange m (burstIndices n))) = true ∧ Cells.below (cellsOf (readRange m (burstIndices n))) 31 :=
  ⟨cellsOf_wf (by rw [readRange_indices]; exact burstIndices_pairwise n), cellsOf_below _⟩

theorem complete_canonical {s : State} (h : s.MemoriesCanonical) : s.complete.MemoriesCanonical := by
  rcases complete_cases s with ⟨-, hc⟩ | ⟨-, hc⟩ | ⟨-, n, hc⟩ <;> rw [hc]
  · exact h
  · exact h
  · obtain ⟨⟨hrx, hbuf, -⟩, hp⟩ := (memoriesCanonical_iff s).mp h
    exact (memoriesCanonical_iff _).mpr ⟨⟨hrx, hbuf, readRange_canonical s.buf n⟩, hp⟩

theorem sequencerStep_canonical {s : State} (h : s.MemoriesCanonical) : (sequencerStep s).MemoriesCanonical := by
  rcases sequencerStep_cases s with ⟨n, -, hs⟩ | ⟨-, ⟨e, -, hs⟩ | ⟨-, hs⟩⟩ <;> rw [hs]
  · exact h
  · exact performEntry_canonical (s := s.noteRead s.holdsOperands) h e
  · exact complete_canonical (s := s.noteRead s.holdsOperands) h

/-- An operation that begins with a canonical buffer leaves every memory canonical. -/
theorem beginOp_canonical {s : State} (h : s.MemoriesCanonical) (op : HostOp) (cmd tx : Byte) {buf : Memory}
    (hb : Memory.wf buf = true ∧ Cells.below buf 31) : (s.beginOp op cmd tx buf).MemoriesCanonical := by
  obtain ⟨⟨-, -, hrbuf⟩, hp⟩ := (memoriesCanonical_iff s).mp h
  exact (memoriesCanonical_iff _).mpr ⟨⟨⟨rfl, cells_below_nil 8⟩, hb, hrbuf⟩, hp⟩

theorem clearRspRbuf_canonical {s : State} (h : s.MemoriesCanonical) :
    State.MemoriesCanonical { s with rspRbuf := [] } := by
  obtain ⟨⟨hrx, hbuf, -⟩, hp⟩ := (memoriesCanonical_iff s).mp h
  exact (memoriesCanonical_iff _).mpr ⟨⟨hrx, hbuf, rfl, cells_below_nil 31⟩, hp⟩

theorem beginInit_canonical {s : State} (h : s.MemoriesCanonical) : s.beginInit.MemoriesCanonical := by
  unfold State.beginInit
  split <;> exact beginOp_canonical h _ _ _ ⟨rfl, cells_below_nil 31⟩

theorem exec_canonical {i : Instr} {s t : State} (h : s.MemoriesCanonical) (ht : exec i s = .next t) :
    t.MemoriesCanonical := by
  rcases exec_next ht with rfl | ⟨rc, index, isRead, hcell, rfl⟩ | ⟨-, op, cmd, tx, buf, hbuf, rfl⟩ | ⟨-, st, rfl⟩
  · exact h
  · exact withPeriph_canonical h (takeCommand_canonical ((memoriesCanonical_iff s).mp h).2 isRead hcell)
  · exact clearRspRbuf_canonical (beginOp_canonical h op cmd tx hbuf)
  · exact clearRspRbuf_canonical h

/-- A byte that names nothing changes the peripheral alone: it is ignored (R222, R207) or, with nothing wired up, nothing happens. -/
theorem badCommand_next {s t : State} (h : s.badCommand = .next t) :
    t = s ∨ t = { s with periph := s.periph.ignoreCommand } := by
  unfold State.badCommand at h
  split at h
  · exact .inr (Host.Outcome.next.inj h).symm
  · split at h
    · exact .inr (Host.Outcome.next.inj h).symm
    · cases h
  · exact .inl (Host.Outcome.next.inj h).symm

theorem takeReset_canonical {s : State} (h : s.MemoriesCanonical) : s.takeReset.MemoriesCanonical := by
  have hp := ((memoriesCanonical_iff s).mp h).2
  exact (memoriesCanonical_iff _).mpr
    ⟨⟨⟨rfl, cells_below_nil 8⟩, ⟨rfl, cells_below_nil 31⟩, rfl, cells_below_nil 31⟩, atReset_canonical hp _ _ _⟩

end Sys2Proof.Machine

namespace Sys2Proof.Proofs

open Sys2Proof Sys2Proof.Machine

/-- Settles O52: each move keeps every memory canonical, and the host's turn touches none. -/
theorem stepKeepsMemoriesCanonical : Obligations.StepKeepsMemoriesCanonical := by
  intro s t h hstep
  rcases step_cases hstep with ⟨-, rfl⟩ | ⟨i, u, -, hu, rfl⟩ | ⟨u, -, hu, rfl⟩ | ⟨-, rfl⟩ | ⟨-, rfl⟩ |
      ⟨i, u, -, hu, rfl⟩ | ⟨-, rfl⟩ <;>
    apply hostTurn_canonical
  case inl => exact takeReset_canonical h
  case inr.inl => exact exec_canonical h hu
  case inr.inr.inl =>
    rcases badCommand_next hu with rfl | rfl
    · exact h
    · exact withPeriph_canonical h (ignoreCommand_canonical ((memoriesCanonical_iff s).mp h).2)
  case inr.inr.inr.inl => exact sequencerStep_canonical h
  case inr.inr.inr.inr.inl => exact beginInit_canonical h
  case inr.inr.inr.inr.inr.inl => exact exec_canonical h hu
  case inr.inr.inr.inr.inr.inr => exact h

end Sys2Proof.Proofs


/-! PROOFS. The request port and the command bytes: whose turn a step is, what each request answers with, which register each command selects,
and the statements about them (10_state.md R25, R34; 30_encoding.md R84 to R91; 60_exceptions.md R201, R215, R225). -/

namespace Sys2Proof.Machine

open Sys2Proof

/-! ### Whose turn it is -/

theorem turn_eq_request {s : State} (hrst : s.rst = false) (hr : s.reqReady = true) (hv : s.port.valid = true) :
    s.turn = .request s.port.instr := by
  simp [State.turn, hrst, hr, hv]

theorem turn_eq_command {s : State} {i : Instr} (hrst : s.rst = false) (hv : s.reqReady = false ∨ s.port.valid = false)
    (hc : s.periph.commandReady = true) (hd : decodeCommand s.commandMap s.periph.shift = .ok i) :
    s.turn = .command i := by
  have hreq : (s.reqReady && s.port.valid) = false := by rcases hv with h | h <;> simp [h]
  simp [State.turn, hrst, hreq, hc, hd]

/-- A ready engine is at IDLE with no init write pending (R25). -/
theorem reqReady_iff (s : State) : s.reqReady = true ↔ s.phase = .idle ∧ s.initPending = false := by
  simp [State.reqReady]

theorem turn_eq_waiting {s : State} (hrst : s.rst = false) (hr : s.reqReady = true) (hv : s.port.valid = false)
    (hc : s.periph.commandReady = false) : s.turn = .waiting := by
  obtain ⟨hp, hi⟩ := (reqReady_iff s).mp hr
  simp [State.turn, hrst, hv, hc, hp, hi]

theorem turn_eq_init {s : State} (hrst : s.rst = false) (hc : s.periph.commandReady = false) (hp : s.phase = .idle)
    (hi : s.initPending = true) : s.turn = .init := by
  simp [State.turn, State.reqReady, hrst, hc, hp, hi]

theorem turn_eq_reset {s : State} (hrst : s.rst = true) : s.turn = .reset := by
  simp [State.turn, hrst]

/-! ### A placed word -/

/-- A bit of a number taken as a word. -/
theorem getElem_ofNat {n i : Nat} (h : i < n) (w : Nat) : (BitVec.ofNat n w)[i] = w.testBit i := by
  rw [← BitVec.getLsbD_eq_getElem, BitVec.getLsbD_ofNat, decide_eq_true h, Bool.true_and]

/-- The table's word is the one its three bytes put together. -/
theorem word_of_tableBytes (w : Nat) :
    ((BitVec.ofNat 8 (w / 65536)).extractLsb' 0 3 ++ BitVec.ofNat 8 (w / 256) ++ BitVec.ofNat 8 w : BitVec 19) =
      BitVec.ofNat 19 w := by
  have h256 : ∀ i, (w / 256).testBit i = w.testBit (i + 8) := Nat.testBit_div_two_pow (n := 8) w
  have h65536 : ∀ i, (w / 65536).testBit i = w.testBit (i + 16) := Nat.testBit_div_two_pow (n := 16) w
  ext i hi
  grind [getElem_ofNat]

/-- The instruction of a table word, where it is no command byte: the request of its fields, with a payload of zeros. -/
theorem decodeTableWord_request {nbits w : Nat} {i : Instr} (hc : tableIsCommand nbits w = false)
    (h : decodeTableWord nbits w = some i) :
    i = decodeRequest ((BitVec.ofNat 19 w).extractLsb' 0 3) ((BitVec.ofNat 19 w).extractLsb' 3 8)
      ((BitVec.ofNat 19 w).extractLsb' 11 8)
      (List.replicate (payloadLen ((BitVec.ofNat 19 w).extractLsb' 0 3)) 0) := by
  have hop : BitVec.ofNat 3 w = (BitVec.ofNat 19 w).extractLsb' 0 3 := by
    ext i hi
    grind [getElem_ofNat]
  simp only [decodeTableWord, tableBytes, hc, decode, decodeWith, Bool.false_eq_true, if_false, List.cons_append,
    List.nil_append, word_of_tableBytes, decodeWord, hop, List.length_replicate, if_true] at h
  grind

/-- The instruction of a table word that is a command byte: the default map's command. -/
theorem decodeTableWord_command {nbits w : Nat} {i : Instr} (hc : tableIsCommand nbits w = true)
    (h : decodeTableWord nbits w = some i) : decodeCommand Config.regMap (BitVec.ofNat 8 w) = .ok i := by
  simp only [decodeTableWord, tableBytes, hc, decode, decodeWith, if_true] at h
  grind

/-- A host that shows zeros gives a payload of zeros. -/
theorem payload_replicate_zero (valid held : Bool) (op : BitVec 3) (addr wdata : Byte) (k n : Nat) :
    (Port.mk valid held ⟨op, addr, wdata, List.replicate k 0⟩).payload n = List.replicate n 0 := by
  refine List.eq_replicate_iff.mpr ⟨by simp [Port.payload], fun b hb => ?_⟩
  obtain ⟨j, -, rfl⟩ := List.mem_map.mp hb
  simp only [List.getD_eq_getElem?_getD, List.getElem?_replicate]
  split <;> rfl

/-- A placed command byte is the next step's (R215). -/
theorem turn_placeCommand (s : State) {c : Byte} {i : Instr} (h : decodeCommand Config.regMap c = .ok i) :
    (s.placeCommand c).turn = .command i := by
  refine turn_eq_command rfl (.inr rfl) ?_ ?_
  · cases hk : s.periph.kind <;> simp [State.placeCommand, Periph.commandReady, hk]
  · have hmap : (s.placeCommand c).commandMap = Config.regMap := by
      cases hk : s.periph.kind <;> simp [State.placeCommand, State.commandMap, hk]
    rw [hmap]
    exact h

/-! ### What the requests answer with -/

@[simp] theorem onRequest_ready {s : State} (h : s.reqReady = true) (t : State) : onRequest s t = .next t := by
  simp [onRequest, h]

@[simp] theorem onRequest_busy {s : State} (h : s.reqReady = false) (t : State) : onRequest s t = .next s := by
  simp [onRequest, h]

/-- An operand is valid iff without bit 0 it is a write form of the map (R87). -/
theorem validAddr_iff_mem (m : RegMap) (addr : Byte) : validAddr m addr = true ↔ addr &&& 0xFE ∈ m.writeForms :=
  List.contains_iff_mem

/-- READ and WRITE of an operand that is not valid are rejected. -/
theorem acceptAt_invalid {s : State} {addr : Byte} (h : validAddr s.params.regMap addr = false) (op : HostOp)
    (cmd tx : Byte) : s.acceptAt addr op cmd tx = s.reject .invalidAddress := by
  simp [State.acceptAt, h]

theorem acceptAt_valid {s : State} {addr : Byte} (h : validAddr s.params.regMap addr = true) (op : HostOp)
    (cmd tx : Byte) : s.acceptAt addr op cmd tx = s.accept op cmd tx [] := by
  simp [State.acceptAt, h]

theorem acceptRamBurst_present {s : State} (h : s.params.hasRamBurst = true) (op : HostOp) (cmd tx : Byte) (buf : Memory) :
    s.acceptRamBurst op cmd tx buf = s.accept op cmd tx buf := by
  simp [State.acceptRamBurst, h]

/-- Cells of consecutive indexes read as the bytes at them. -/
theorem read_cellsOf_zip {ks : List (Fin 31)} {first : Nat} (hks : ks.map Fin.val = List.range' first ks.length)
    {bytes : List Byte} (hlen : bytes.length = ks.length) (k : Nat) :
    Cells.read (cellsOf (ks.zip bytes)) k = if first ≤ k then bytes[k - first]? else none := by
  induction ks generalizing first bytes with
  | nil => simp_all [cellsOf, Cells.read]
  | cons x xs ih =>
    obtain ⟨b, bs, rfl⟩ := List.exists_cons_of_length_eq_add_one hlen
    simp only [List.map_cons, List.length_cons, List.range'_succ, List.cons.injEq] at hks
    obtain ⟨hx, hxs⟩ := hks
    have hrest := ih hxs (Nat.succ.inj hlen)
    simp only [cellsOf, List.zip_cons_cons, List.map_cons, Cells.read, hx] at hrest ⊢
    rw [hrest]
    grind

/-- A payload of its burst's length is in `buf` byte for byte (R25). -/
theorem read_payloadCells {n : Nat} (hn : n ≤ 31) {payload : List Byte} (h : payload.length = n) (k : Nat) :
    Cells.read (payloadCells n payload) k = payload[k]? := by
  have hlen : (burstIndices n).length = n := by simp [burstIndices, hn]
  have hks : (burstIndices n).map Fin.val = List.range' 0 (burstIndices n).length := by
    rw [hlen]
    apply List.ext_getElem <;> simp [burstIndices, hn]
  simpa [payloadCells] using read_cellsOf_zip hks (h.trans hlen.symm) k

/-! ### Traces -/

/-- Two states stand alike at the port: in the same phase, and with the same trace to perform if one is in hand. -/
def SameTrace (t₁ t₂ : State) : Prop :=
  t₁.phase = t₂.phase ∧ (t₁.phase ≠ .idle → t₁.operationTrace = t₂.operationTrace)

theorem sameTrace_of_idle {t₁ t₂ : State} (h₁ : t₁.phase = .idle) (h₂ : t₂.phase = .idle) : SameTrace t₁ t₂ :=
  ⟨h₁.trans h₂.symm, fun h => absurd h₁ h⟩

/-- An operation that begins has the trace of its `op`, `cmd`, `tx` and `buf` (R109). -/
theorem sameTrace_accept (s₁ s₂ : State) (op : HostOp) (cmd tx : Byte) (buf : Memory) :
    SameTrace (s₁.accept op cmd tx buf) (s₂.accept op cmd tx buf) := ⟨rfl, fun _ => rfl⟩

theorem sameTrace_give (a : Answer) {s₁ s₂ : State} (hp : s₁.params = s₂.params) (h₁ : s₁.phase = .idle)
    (h₂ : s₂.phase = .idle) : SameTrace (a.give s₁) (a.give s₂) := by
  unfold Answer.give
  rw [hp]
  split
  · exact sameTrace_accept s₁ s₂ _ _ _ _
  · exact sameTrace_of_idle h₁ h₂

/-- A command leaves the phase. -/
theorem takeCommand_phase {rc : Bool} {index : Nat} {isRead : Bool} {s t : State}
    (h : takeCommand rc index isRead s = .next t) : t.phase = s.phase := by
  rcases takeCommand_cases rc index isRead s with ⟨-, hc⟩ | ⟨-, hc⟩ <;>
    obtain rfl := Host.Outcome.next.inj (hc ▸ h) <;> rfl

/-! ### What the commands select -/

/-- Each command of the clock space is taken at its register. -/
theorem exec_clockCommands {c : Instr × Nat × Bool} (hc : c ∈ clockCommands) :
    c.2.1 ≠ 31 ∧ ∀ s, exec c.1 s = takeCommand false c.2.1 c.2.2 s := by
  fin_cases hc <;> exact ⟨by decide, fun _ => rfl⟩

/-- A command that is no burst sets direction, subspace and pointer, and leaves the frozen record. -/
theorem takeCommand_single {s : State} (hk : s.periph.kind ≠ .absent) (rc : Bool) {index : Nat} (hi : index ≠ 31)
    (isRead : Bool) :
    takeCommand rc index isRead s = .next
      { s with periph := { s.periph with
          nbits := 0, rc := rc, burst := false, ptr := index, mode := if isRead then .rdata else .wdata } } := by
  rcases takeCommand_cases rc index isRead s with ⟨habsent, -⟩ | ⟨-, hc⟩
  · exact absurd habsent hk
  · rw [hc]
    simp [Periph.takeCommand, hi]

end Sys2Proof.Machine

namespace Sys2Proof.Proofs

open Sys2Proof Sys2Proof.Machine

/-- Settles O5: the placed word is the next step's, and it is fetched as the decoder reads it. -/
theorem stepRunsThePlacedWord : Obligations.StepRunsThePlacedWord := by
  intro s nbits w i h
  cases hc : tableIsCommand nbits w
  · have hfetch : s.withFetchWord nbits w = s.placeRequest (BitVec.ofNat 19 w) := by simp [State.withFetchWord, hc]
    have hturn : (s.placeRequest (BitVec.ofNat 19 w)).turn = .request i := by
      rw [turn_eq_request rfl rfl rfl, decodeTableWord_request hc h]
      simp only [Port.instr, State.placeRequest, payload_replicate_zero]
    rw [hfetch, step, hturn]
    rfl
  · have hfetch : s.withFetchWord nbits w = s.placeCommand (BitVec.ofNat 8 w) := by simp [State.withFetchWord, hc]
    rw [hfetch, step, turn_placeCommand s (decodeTableWord_command hc h)]
    rfl

/-- Settles O6: in each of the three cases the turn is what the statement says. -/
theorem stepRunsTheDecodedInstruction : Obligations.StepRunsTheDecodedInstruction := by
  intro s hrst
  refine ⟨fun i hv hc hd => ?_, fun hr hv => ?_, fun hr hv hc => ?_⟩
  · rw [step, turn_eq_command hrst hv hc hd]
  · rw [step, turn_eq_request hrst hr hv]
  · rw [step, turn_eq_waiting hrst hr hv hc]

/-- Settles O7. -/
theorem readIsAccepted : Obligations.ReadIsAccepted := by
  intro addr wdata s hr hv
  calc exec (.read addr wdata) s
      = onRequest s (s.acceptAt addr .read (readCommand addr) wdata) := rfl
    _ = .next (s.accept .read (readCommand addr) wdata []) := by rw [onRequest_ready hr, acceptAt_valid hv]
    _ = _ := rfl

/-- Settles O8. -/
theorem writeIsAccepted : Obligations.WriteIsAccepted := by
  intro addr v s hr hv
  calc exec (.write addr v) s
      = onRequest s (s.acceptAt addr .write (writeCommand addr) v) := rfl
    _ = .next (s.accept .write (writeCommand addr) v []) := by rw [onRequest_ready hr, acceptAt_valid hv]
    _ = _ := rfl

/-- Settles O9: the buffer of a burst write is its payload's cells. -/
theorem burstsAreAccepted : Obligations.BurstsAreAccepted := by
  intro addr wdata payload s hr m accepted
  have hram : s.params.hasRamBurst = true → ∀ op cmd buf,
      onRequest s (s.acceptRamBurst op cmd wdata buf) = .next (accepted op cmd buf) := fun h op cmd buf => by
    rw [onRequest_ready hr, acceptRamBurst_present h]
    rfl
  refine ⟨onRequest_ready hr _, fun hlen => ⟨_, read_payloadCells (by decide) hlen, onRequest_ready hr _⟩,
    fun hb => hram hb _ _ _, fun hb hlen => ⟨_, read_payloadCells (by decide) hlen, hram hb _ _ _⟩⟩

/-- Settles O11: either premise says that the operand is not valid. -/
theorem invalidAddressIsRejected : Obligations.InvalidAddressIsRejected := by
  intro addr wdata s hr rejected
  have hreject : validAddr s.params.regMap addr = false →
      exec (.read addr wdata) s = rejected ∧ exec (.write addr wdata) s = rejected := fun hv => by
    constructor
    · exact (onRequest_ready hr _).trans (congrArg _ (acceptAt_invalid hv _ _ _))
    · exact (onRequest_ready hr _).trans (congrArg _ (acceptAt_invalid hv _ _ _))
  refine ⟨fun h => hreject ?_, fun hmap h => hreject ?_⟩
  · rw [← Bool.not_eq_true, validAddr_iff_mem]
    exact h
  · have hmask : addr &&& 0xFE &&& 0xFE = addr &&& 0xFE := by rw [BitVec.and_assoc]; rfl
    rw [← Bool.not_eq_true, validAddr_iff_mem, hmap, ← hmask, ← validAddr_iff_mem, validAddr_default]
    exact h

/-- Settles O15: every request is `onRequest` of a busy engine, and the host's turn goes by the head of its script. -/
theorem requestsWaitWhileBusy : Obligations.RequestsWaitWhileBusy := by
  refine ⟨fun s addr wdata payload hb i hi => ?_, fun s hv hh => hostTurn_holds hv hh,
    fun s taken rest r cfg hp => ?_⟩
  · simp only [List.mem_cons, List.not_mem_nil, or_false] at hi
    rcases hi with rfl | rfl | rfl | rfl | rfl | rfl | rfl | rfl <;> exact onRequest_busy hb _
  · have hmove : (s.port.valid && s.port.held && !taken) = false := by
      rcases hp with h | h | h <;> simp [h]
    refine ⟨fun h => ?_, fun h => ?_, fun h => ?_, fun h => ?_, fun h => ?_⟩ <;> simp [hostTurn, hmove, h]

/-- Settles O17: a command leaves the engine at IDLE, and a request is answered from its operands and the parameters. -/
theorem traceDependsOnTheRequestAlone : Obligations.TraceDependsOnTheRequestAlone := by
  intro i s₁ s₂ t₁ t₂ hr₁ hr₂ hp h₁ h₂
  obtain ⟨hidle₁, -⟩ := (reqReady_iff s₁).mp hr₁
  obtain ⟨hidle₂, -⟩ := (reqReady_iff s₂).mp hr₂
  rcases takenAs_or_answeredBy i with ⟨rc, index, isRead, -, hi⟩ | ⟨a, -, hi⟩ <;> rw [hi] at h₁ h₂
  · exact sameTrace_of_idle ((takeCommand_phase h₁).trans hidle₁) ((takeCommand_phase h₂).trans hidle₂)
  · rw [onRequest_ready hr₁] at h₁
    rw [onRequest_ready hr₂] at h₂
    obtain rfl := Host.Outcome.next.inj h₁
    obtain rfl := Host.Outcome.next.inj h₂
    exact sameTrace_give a hp hidle₁ hidle₂

/-- Settles O18: each of these commands is taken at an index other than the bursts'. -/
theorem registerCommandsSelectTheirRegister : Obligations.RegisterCommandsSelectTheirRegister := by
  intro s n hk
  refine ⟨fun c hc => ?_, fun hn => ?_⟩
  · obtain ⟨hne, hexec⟩ := exec_clockCommands hc
    rw [hexec, takeCommand_single hk false hne]
  · have hne : n.toNat ≠ 31 := fun h => hn (BitVec.eq_of_toNat_eq h)
    exact ⟨takeCommand_single hk true hne false, takeCommand_single hk true hne true⟩

end Sys2Proof.Proofs


/-! PROOFS. The sequencer, reset and the init policy (10_state.md R24, R29, R46, R47; 40_primitives.md R109; 43_init.md R160, R161): what an
event, an entry of a trace and a step leave unchanged, and the statements about them. -/

namespace Sys2Proof.Machine

open Sys2Proof

/-! ### The host's turn, field by field -/

@[simp] theorem hostTurn_params (b : Bool) (s : State) : (hostTurn b s).params = s.params := by
  obtain ⟨_, _, _, _, h⟩ := hostTurn_engine b s
  rw [h]
@[simp] theorem hostTurn_phase (b : Bool) (s : State) : (hostTurn b s).phase = s.phase := by
  obtain ⟨_, _, _, _, h⟩ := hostTurn_engine b s
  rw [h]
@[simp] theorem hostTurn_pos (b : Bool) (s : State) : (hostTurn b s).pos = s.pos := by
  obtain ⟨_, _, _, _, h⟩ := hostTurn_engine b s
  rw [h]
@[simp] theorem hostTurn_initPending (b : Bool) (s : State) : (hostTurn b s).initPending = s.initPending := by
  obtain ⟨_, _, _, _, h⟩ := hostTurn_engine b s
  rw [h]
@[simp] theorem hostTurn_initSecond (b : Bool) (s : State) : (hostTurn b s).initSecond = s.initSecond := by
  obtain ⟨_, _, _, _, h⟩ := hostTurn_engine b s
  rw [h]
@[simp] theorem hostTurn_ce (b : Bool) (s : State) : (hostTurn b s).ce = s.ce := by
  obtain ⟨_, _, _, _, h⟩ := hostTurn_engine b s
  rw [h]
@[simp] theorem hostTurn_clk (b : Bool) (s : State) : (hostTurn b s).clk = s.clk := by
  obtain ⟨_, _, _, _, h⟩ := hostTurn_engine b s
  rw [h]
@[simp] theorem hostTurn_dout (b : Bool) (s : State) : (hostTurn b s).dout = s.dout := by
  obtain ⟨_, _, _, _, h⟩ := hostTurn_engine b s
  rw [h]
@[simp] theorem hostTurn_dir (b : Bool) (s : State) : (hostTurn b s).dir = s.dir := by
  obtain ⟨_, _, _, _, h⟩ := hostTurn_engine b s
  rw [h]
@[simp] theorem hostTurn_rspValid (b : Bool) (s : State) : (hostTurn b s).rspValid = s.rspValid := by
  obtain ⟨_, _, _, _, h⟩ := hostTurn_engine b s
  rw [h]
@[simp] theorem hostTurn_rspStatus (b : Bool) (s : State) : (hostTurn b s).rspStatus = s.rspStatus := by
  obtain ⟨_, _, _, _, h⟩ := hostTurn_engine b s
  rw [h]
@[simp] theorem hostTurn_rspRdata (b : Bool) (s : State) : (hostTurn b s).rspRdata = s.rspRdata := by
  obtain ⟨_, _, _, _, h⟩ := hostTurn_engine b s
  rw [h]
@[simp] theorem hostTurn_rspRbuf (b : Bool) (s : State) : (hostTurn b s).rspRbuf = s.rspRbuf := by
  obtain ⟨_, _, _, _, h⟩ := hostTurn_engine b s
  rw [h]
@[simp] theorem hostTurn_op (b : Bool) (s : State) : (hostTurn b s).op = s.op := by
  obtain ⟨_, _, _, _, h⟩ := hostTurn_engine b s
  rw [h]
@[simp] theorem hostTurn_cmd (b : Bool) (s : State) : (hostTurn b s).cmd = s.cmd := by
  obtain ⟨_, _, _, _, h⟩ := hostTurn_engine b s
  rw [h]
@[simp] theorem hostTurn_tx (b : Bool) (s : State) : (hostTurn b s).tx = s.tx := by
  obtain ⟨_, _, _, _, h⟩ := hostTurn_engine b s
  rw [h]
@[simp] theorem hostTurn_rx (b : Bool) (s : State) : (hostTurn b s).rx = s.rx := by
  obtain ⟨_, _, _, _, h⟩ := hostTurn_engine b s
  rw [h]
@[simp] theorem hostTurn_bit (b : Bool) (s : State) : (hostTurn b s).bit = s.bit := by
  obtain ⟨_, _, _, _, h⟩ := hostTurn_engine b s
  rw [h]
@[simp] theorem hostTurn_idx (b : Bool) (s : State) : (hostTurn b s).idx = s.idx := by
  obtain ⟨_, _, _, _, h⟩ := hostTurn_engine b s
  rw [h]
@[simp] theorem hostTurn_buf (b : Bool) (s : State) : (hostTurn b s).buf = s.buf := by
  obtain ⟨_, _, _, _, h⟩ := hostTurn_engine b s
  rw [h]
@[simp] theorem hostTurn_waitCtr (b : Bool) (s : State) : (hostTurn b s).waitCtr = s.waitCtr := by
  obtain ⟨_, _, _, _, h⟩ := hostTurn_engine b s
  rw [h]
@[simp] theorem hostTurn_contention (b : Bool) (s : State) : (hostTurn b s).contention = s.contention := by
  obtain ⟨_, _, _, _, h⟩ := hostTurn_engine b s
  rw [h]
@[simp] theorem hostTurn_aborted (b : Bool) (s : State) : (hostTurn b s).aborted = s.aborted := by
  obtain ⟨_, _, _, _, h⟩ := hostTurn_engine b s
  rw [h]
@[simp] theorem hostTurn_noValueRead (b : Bool) (s : State) : (hostTurn b s).noValueRead = s.noValueRead := by
  obtain ⟨_, _, _, _, h⟩ := hostTurn_engine b s
  rw [h]
@[simp] theorem hostTurn_trace (b : Bool) (s : State) : (hostTurn b s).trace = s.trace := by
  obtain ⟨_, _, _, _, h⟩ := hostTurn_engine b s
  rw [h]
@[simp] theorem hostTurn_draws (b : Bool) (s : State) : (hostTurn b s).draws = s.draws := by
  obtain ⟨_, _, _, _, h⟩ := hostTurn_engine b s
  rw [h]
@[simp] theorem hostTurn_periph (b : Bool) (s : State) : (hostTurn b s).periph = s.periph := by
  obtain ⟨_, _, _, _, h⟩ := hostTurn_engine b s
  rw [h]

/-! ### An event, field by field -/

@[simp] theorem emit_params (e : Event) (s : State) : (emit e s).params = s.params := by
  obtain ⟨_, _, _, _, _, _, _, _, h⟩ := emit_frame e s
  rw [h]
@[simp] theorem emit_phase (e : Event) (s : State) : (emit e s).phase = s.phase := by
  obtain ⟨_, _, _, _, _, _, _, _, h⟩ := emit_frame e s
  rw [h]
@[simp] theorem emit_pos (e : Event) (s : State) : (emit e s).pos = s.pos := by
  obtain ⟨_, _, _, _, _, _, _, _, h⟩ := emit_frame e s
  rw [h]
@[simp] theorem emit_initPending (e : Event) (s : State) : (emit e s).initPending = s.initPending := by
  obtain ⟨_, _, _, _, _, _, _, _, h⟩ := emit_frame e s
  rw [h]
@[simp] theorem emit_initSecond (e : Event) (s : State) : (emit e s).initSecond = s.initSecond := by
  obtain ⟨_, _, _, _, _, _, _, _, h⟩ := emit_frame e s
  rw [h]
@[simp] theorem emit_rspValid (e : Event) (s : State) : (emit e s).rspValid = s.rspValid := by
  obtain ⟨_, _, _, _, _, _, _, _, h⟩ := emit_frame e s
  rw [h]
@[simp] theorem emit_rspStatus (e : Event) (s : State) : (emit e s).rspStatus = s.rspStatus := by
  obtain ⟨_, _, _, _, _, _, _, _, h⟩ := emit_frame e s
  rw [h]
@[simp] theorem emit_rspRdata (e : Event) (s : State) : (emit e s).rspRdata = s.rspRdata := by
  obtain ⟨_, _, _, _, _, _, _, _, h⟩ := emit_frame e s
  rw [h]
@[simp] theorem emit_rspRbuf (e : Event) (s : State) : (emit e s).rspRbuf = s.rspRbuf := by
  obtain ⟨_, _, _, _, _, _, _, _, h⟩ := emit_frame e s
  rw [h]
@[simp] theorem emit_op (e : Event) (s : State) : (emit e s).op = s.op := by
  obtain ⟨_, _, _, _, _, _, _, _, h⟩ := emit_frame e s
  rw [h]
@[simp] theorem emit_cmd (e : Event) (s : State) : (emit e s).cmd = s.cmd := by
  obtain ⟨_, _, _, _, _, _, _, _, h⟩ := emit_frame e s
  rw [h]
@[simp] theorem emit_tx (e : Event) (s : State) : (emit e s).tx = s.tx := by
  obtain ⟨_, _, _, _, _, _, _, _, h⟩ := emit_frame e s
  rw [h]
@[simp] theorem emit_bit (e : Event) (s : State) : (emit e s).bit = s.bit := by
  obtain ⟨_, _, _, _, _, _, _, _, h⟩ := emit_frame e s
  rw [h]
@[simp] theorem emit_idx (e : Event) (s : State) : (emit e s).idx = s.idx := by
  obtain ⟨_, _, _, _, _, _, _, _, h⟩ := emit_frame e s
  rw [h]
@[simp] theorem emit_buf (e : Event) (s : State) : (emit e s).buf = s.buf := by
  obtain ⟨_, _, _, _, _, _, _, _, h⟩ := emit_frame e s
  rw [h]
@[simp] theorem emit_aborted (e : Event) (s : State) : (emit e s).aborted = s.aborted := by
  obtain ⟨_, _, _, _, _, _, _, _, h⟩ := emit_frame e s
  rw [h]
@[simp] theorem emit_noValueRead (e : Event) (s : State) : (emit e s).noValueRead = s.noValueRead := by
  obtain ⟨_, _, _, _, _, _, _, _, h⟩ := emit_frame e s
  rw [h]
@[simp] theorem emit_port (e : Event) (s : State) : (emit e s).port = s.port := by
  obtain ⟨_, _, _, _, _, _, _, _, h⟩ := emit_frame e s
  rw [h]
@[simp] theorem emit_rst (e : Event) (s : State) : (emit e s).rst = s.rst := by
  obtain ⟨_, _, _, _, _, _, _, _, h⟩ := emit_frame e s
  rw [h]
@[simp] theorem emit_cfgInitClear (e : Event) (s : State) : (emit e s).cfgInitClear = s.cfgInitClear := by
  obtain ⟨_, _, _, _, _, _, _, _, h⟩ := emit_frame e s
  rw [h]
@[simp] theorem emit_script (e : Event) (s : State) : (emit e s).script = s.script := by
  obtain ⟨_, _, _, _, _, _, _, _, h⟩ := emit_frame e s
  rw [h]
@[simp] theorem emit_trace (e : Event) (s : State) : (emit e s).trace = e :: s.trace := by
  obtain ⟨_, _, _, _, _, _, _, _, h⟩ := emit_frame e s
  rw [h]
@[simp] theorem emit_draws (e : Event) (s : State) : (emit e s).draws = s.draws + 1 := by
  obtain ⟨_, _, _, _, _, _, _, _, h⟩ := emit_frame e s
  rw [h]

/-- An event does to the engine's own registers what `applyEvent` says: an abort touches the peripheral alone. -/
theorem emit_eq (e : Event) (s : State) :
    ∃ periph contention, emit e s =
      { applyEvent e s with
        periph := periph, contention := contention, trace := e :: s.trace, draws := s.draws + 1 } := by
  refine ⟨(emit e s).periph, (emit e s).contention, ?_⟩
  cases ha : s.aborted <;> cases e <;> simp only [emit, applyEvent, State.afterAbort, ha] <;> rfl

/-- R24: an event writes its own latch and no other. -/
@[simp] theorem emit_levels (e : Event) (s : State) : (emit e s).levels = s.levels.after e := by
  obtain ⟨_, _, h⟩ := emit_eq e s
  rw [h]
  cases e <;> rfl

/-- R29: WAIT loads `wait_ctr`. -/
theorem emit_wait_waitCtr (d : Delay) (s : State) :
    (emit (.wait d) s).waitCtr = some (s.params.delay d * s.params.ticksPerUs) := by
  obtain ⟨_, _, h⟩ := emit_eq (.wait d) s
  rw [h]
  rfl

/-- R29: no other event writes it. -/
theorem emit_waitCtr {e : Event} (he : ∀ d, e ≠ .wait d) (s : State) : (emit e s).waitCtr = s.waitCtr := by
  obtain ⟨_, _, h⟩ := emit_eq e s
  rw [h]
  cases e with
  | wait d => exact absurd rfl (he d)
  | _ => rfl

/-- R106: SAMPLE puts the line's level in one bit of `rx`. -/
theorem emit_sample_rx (k : Fin 8) (s : State) : (emit (.sample k) s).rx = Cells.write s.rx k.val s.line := by
  obtain ⟨_, _, h⟩ := emit_eq (.sample k) s
  rw [h]
  rfl

/-- R106: no other event writes `rx`. -/
theorem emit_rx {e : Event} (he : ∀ k, e ≠ .sample k) (s : State) : (emit e s).rx = s.rx := by
  obtain ⟨_, _, h⟩ := emit_eq e s
  rw [h]
  cases e with
  | sample k => exact absurd rfl (he k)
  | _ => rfl

/-- R213, R214, R221: without an abort only CE and CLK events reach the peripheral. -/
theorem emit_periph_quiet {e : Event} {s : State} (ha : s.aborted = false) (hce : ∀ b, e ≠ .ce b) (hclk : ∀ b, e ≠ .clk b) :
    (emit e s).periph = s.periph := by
  cases e with
  | ce b => exact absurd rfl (hce b)
  | clk b => exact absurd rfl (hclk b)
  | _ => simp [emit, applyEvent, State.afterAbort, ha]

/-- An event does not read the fields an entry sets. -/
theorem emit_mark (e : Entry) (ev : Event) (s : State) : emit ev (e.mark s) = e.mark (emit ev s) := by
  cases ha : s.aborted <;> cases ev <;> simp only [emit, applyEvent, State.afterAbort, mark_aborted, ha] <;> rfl

/-- An event does not read the record of a missing value. -/
theorem emit_noteRead (b : Bool) (ev : Event) (s : State) : emit ev (s.noteRead b) = (emit ev s).noteRead b := by
  cases ha : s.aborted <;> cases ev <;> simp only [emit, applyEvent, State.afterAbort, noteRead_aborted, ha] <;> rfl

/-! ### A delivery, field by field -/

@[simp] theorem deliver_params (d : Dest) (s : State) : (deliver d s).params = s.params := by cases d <;> rfl
@[simp] theorem deliver_phase (d : Dest) (s : State) : (deliver d s).phase = s.phase := by cases d <;> rfl
@[simp] theorem deliver_pos (d : Dest) (s : State) : (deliver d s).pos = s.pos := by cases d <;> rfl
@[simp] theorem deliver_initPending (d : Dest) (s : State) : (deliver d s).initPending = s.initPending := by cases d <;> rfl
@[simp] theorem deliver_initSecond (d : Dest) (s : State) : (deliver d s).initSecond = s.initSecond := by cases d <;> rfl
@[simp] theorem deliver_ce (d : Dest) (s : State) : (deliver d s).ce = s.ce := by cases d <;> rfl
@[simp] theorem deliver_clk (d : Dest) (s : State) : (deliver d s).clk = s.clk := by cases d <;> rfl
@[simp] theorem deliver_dout (d : Dest) (s : State) : (deliver d s).dout = s.dout := by cases d <;> rfl
@[simp] theorem deliver_dir (d : Dest) (s : State) : (deliver d s).dir = s.dir := by cases d <;> rfl
@[simp] theorem deliver_rspValid (d : Dest) (s : State) : (deliver d s).rspValid = s.rspValid := by cases d <;> rfl
@[simp] theorem deliver_rspStatus (d : Dest) (s : State) : (deliver d s).rspStatus = s.rspStatus := by cases d <;> rfl
@[simp] theorem deliver_rspRbuf (d : Dest) (s : State) : (deliver d s).rspRbuf = s.rspRbuf := by cases d <;> rfl
@[simp] theorem deliver_op (d : Dest) (s : State) : (deliver d s).op = s.op := by cases d <;> rfl
@[simp] theorem deliver_cmd (d : Dest) (s : State) : (deliver d s).cmd = s.cmd := by cases d <;> rfl
@[simp] theorem deliver_tx (d : Dest) (s : State) : (deliver d s).tx = s.tx := by cases d <;> rfl
@[simp] theorem deliver_rx (d : Dest) (s : State) : (deliver d s).rx = s.rx := by cases d <;> rfl
@[simp] theorem deliver_bit (d : Dest) (s : State) : (deliver d s).bit = s.bit := by cases d <;> rfl
@[simp] theorem deliver_idx (d : Dest) (s : State) : (deliver d s).idx = s.idx := by cases d <;> rfl
@[simp] theorem deliver_waitCtr (d : Dest) (s : State) : (deliver d s).waitCtr = s.waitCtr := by cases d <;> rfl
@[simp] theorem deliver_contention (d : Dest) (s : State) : (deliver d s).contention = s.contention := by cases d <;> rfl
@[simp] theorem deliver_aborted (d : Dest) (s : State) : (deliver d s).aborted = s.aborted := by cases d <;> rfl
@[simp] theorem deliver_trace (d : Dest) (s : State) : (deliver d s).trace = s.trace := by cases d <;> rfl
@[simp] theorem deliver_draws (d : Dest) (s : State) : (deliver d s).draws = s.draws := by cases d <;> rfl
@[simp] theorem deliver_port (d : Dest) (s : State) : (deliver d s).port = s.port := by cases d <;> rfl
@[simp] theorem deliver_rst (d : Dest) (s : State) : (deliver d s).rst = s.rst := by cases d <;> rfl
@[simp] theorem deliver_cfgInitClear (d : Dest) (s : State) : (deliver d s).cfgInitClear = s.cfgInitClear := by cases d <;> rfl
@[simp] theorem deliver_script (d : Dest) (s : State) : (deliver d s).script = s.script := by cases d <;> rfl
@[simp] theorem deliver_periph (d : Dest) (s : State) : (deliver d s).periph = s.periph := by cases d <;> rfl

/-- `rsp_rdata` is written by a delivery to it alone (R130). -/
theorem deliver_rspRdata_other {d : Dest} (h : d ≠ .rdata) (s : State) : (deliver d s).rspRdata = s.rspRdata := by
  cases d with
  | rdata => exact absurd rfl h
  | _ => rfl

/-- `buf` is written by a delivery to one of its bytes alone (R140, R142). -/
theorem deliver_buf_other {d : Dest} (h : ∀ k, d ≠ .buf k) (s : State) : (deliver d s).buf = s.buf := by
  cases d with
  | buf k => exact absurd rfl (h k)
  | _ => rfl

theorem deliver_buf_same (k : Fin 31) (s : State) :
    (deliver (.buf k) s).buf = Cells.write s.buf k.val s.received := rfl

/-- A delivery records a bit of `rx` without value (R46, U23). -/
theorem deliver_noValueRead (d : Dest) (s : State) :
    (deliver d s).noValueRead = (s.noValueRead || (decide (d ≠ .nowhere) && (assemble s.rx).isNone)) := by
  cases d <;> simp [deliver, Option.not_isSome]

theorem received_of_assemble {s : State} {v : Byte} (h : assemble s.rx = some v) : s.received = v := by
  rw [State.received, h, valueOr_some]

/-! ### A step -/

theorem noteRead_noteRead (s : State) (a b : Bool) : (s.noteRead a).noteRead b = s.noteRead (a && b) := by
  simp [State.noteRead, Bool.or_assoc]

/-- What an agent's move does to the state: reset; a change of the peripheral alone; the answer to a request; the start of an init write;
and the sequencer's tick, entry of its trace, end of an init write and end of another operation. -/
inductive Move (s : State) : State → Prop
  | reset (h : s.rst = true) : Move s s.takeReset
  | periph (h : s.rst = false) (p : Periph) : Move s { s with periph := p }
  | accept (h : s.rst = false) (hr : s.reqReady = true) (op : HostOp) (cmd tx : Byte) (buf : Memory) :
      Move s (s.accept op cmd tx buf)
  | reject (h : s.rst = false) (hr : s.reqReady = true) (st : Status) : Move s (s.reject st)
  | init (h : s.rst = false) (hp : s.phase = .idle) (hi : s.initPending = true) : Move s s.beginInit
  | tick (h : s.rst = false) (hp : s.phase ≠ .idle) (n : Nat) : Move s (s.tick n)
  | entry (h : s.rst = false) (hp : s.phase ≠ .idle) (e : Entry) (held : Bool) :
      Move s (performEntry e (s.noteRead held))
  | finishInit (h : s.rst = false) (hp : s.phase ≠ .idle) (hi : s.initPending = true) (held : Bool) :
      Move s (s.noteRead held).finishInit
  | respond (h : s.rst = false) (hp : s.phase ≠ .idle) (hi : s.initPending = false) (held : Bool) (rbuf : Memory) :
      Move s ((s.noteRead held).respond rbuf)

theorem move_of_exec {i : Instr} {s u : State} (h : s.rst = false) (hu : exec i s = .next u) : Move s u := by
  rcases exec_next hu with rfl | ⟨rc, index, isRead, -, rfl⟩ | ⟨hr, op, cmd, tx, buf, -, rfl⟩ | ⟨hr, st, rfl⟩
  · exact .periph h u.periph
  · exact .periph h _
  · exact .accept h hr op cmd tx buf
  · exact .reject h hr st

theorem move_of_badCommand {s u : State} (h : s.rst = false) (hu : s.badCommand = .next u) : Move s u := by
  rcases badCommand_next hu with rfl | rfl
  · exact .periph h u.periph
  · exact .periph h _

theorem move_of_sequencer {s : State} (h : s.rst = false) (hp : s.phase ≠ .idle) : Move s (sequencerStep s) := by
  rcases sequencerStep_cases s with ⟨n, -, hs⟩ | ⟨-, ⟨e, -, hs⟩ | ⟨-, hs⟩⟩ <;> rw [hs]
  · exact .tick h hp n
  · exact .entry h hp e _
  · rcases complete_cases (s.noteRead s.holdsOperands) with ⟨hi, hc⟩ | ⟨hi, hc⟩ | ⟨hi, n, hc⟩ <;> rw [hc]
    · exact Move.finishInit (s := s) h hp hi _
    · exact Move.respond (s := s) h hp hi _ _
    · rw [State.respondBytes, noteRead_noteRead]
      exact Move.respond (s := s) h hp hi _ _

/-- A step is one such move and the host's turn after it. -/
theorem step_move {s t : State} (h : step s = .next t) : ∃ taken u, t = hostTurn taken u ∧ Move s u := by
  have hturn := turn_cases s
  rcases step_cases h with ⟨ht, rfl⟩ | ⟨i, u, ht, hu, rfl⟩ | ⟨u, ht, hu, rfl⟩ | ⟨ht, rfl⟩ | ⟨ht, rfl⟩ |
      ⟨i, u, ht, hu, rfl⟩ | ⟨ht, rfl⟩ <;>
    refine ⟨_, _, rfl, ?_⟩ <;> simp [ht] at hturn
  case inl => exact .reset hturn
  case inr.inl =>
    obtain ⟨hrst, -⟩ := hturn
    exact move_of_exec hrst hu
  case inr.inr.inl =>
    obtain ⟨hrst, -⟩ := hturn
    exact move_of_badCommand hrst hu
  case inr.inr.inr.inl =>
    obtain ⟨hrst, -, hphase⟩ := hturn
    exact move_of_sequencer hrst hphase
  case inr.inr.inr.inr.inl =>
    obtain ⟨hrst, -, hphase, hinit⟩ := hturn
    exact .init hrst hphase hinit
  case inr.inr.inr.inr.inr.inl =>
    obtain ⟨-, hrst, -⟩ := hturn
    exact move_of_exec hrst hu
  case inr.inr.inr.inr.inr.inr =>
    obtain ⟨hrst, -⟩ := hturn
    exact .periph hrst s.periph

/-- With no wait running and an event at the position, the sequencer performs it (R109). -/
theorem sequencerStep_event {s : State} (hw : s.noWait) {e : Entry} (he : s.operationTrace[s.pos]? = some e) :
    sequencerStep s = performEntry e (s.noteRead s.holdsOperands) := by
  rcases sequencerStep_cases s with ⟨n, hn, -⟩ | ⟨-, ⟨e', he', hs⟩ | ⟨hnone, -⟩⟩
  · exact absurd hn (hw n)
  · rw [hs, Option.some.inj (he'.symm.trans he)]
  · rw [hnone] at he
    cases he

/-- With no wait running and the trace over, the operation completes (R108). -/
theorem sequencerStep_complete {s : State} (hw : s.noWait) (hl : s.operationTrace.length ≤ s.pos) :
    sequencerStep s = (s.noteRead s.holdsOperands).complete := by
  rcases sequencerStep_cases s with ⟨n, hn, -⟩ | ⟨-, ⟨e, he, -⟩ | ⟨-, hs⟩⟩
  · exact absurd hn (hw n)
  · rw [List.getElem?_eq_none hl] at he
    cases he
  · exact hs

theorem step_sequencer {s : State} (h : s.turn = .sequencer) : step s = .next (hostTurn false (sequencerStep s)) := by
  rw [step, h]

/-- The latches of a state with the same four latches. -/
theorem levels_congr {s t : State} (hce : t.ce = s.ce) (hclk : t.clk = s.clk) (hdout : t.dout = s.dout)
    (hdir : t.dir = s.dir) : t.levels = s.levels := by
  rw [State.levels, State.levels, hce, hclk, hdout, hdir]

@[simp] theorem hostTurn_operationTrace (b : Bool) (s : State) : (hostTurn b s).operationTrace = s.operationTrace := by
  obtain ⟨_, _, _, _, h⟩ := hostTurn_engine b s
  rw [h]
  rfl

@[simp] theorem hostTurn_levels (b : Bool) (s : State) : (hostTurn b s).levels = s.levels :=
  levels_congr (by simp) (by simp) (by simp) (by simp)

@[simp] theorem deliver_levels (d : Dest) (s : State) : (deliver d s).levels = s.levels :=
  levels_congr (by simp) (by simp) (by simp) (by simp)

@[simp] theorem mark_levels (e : Entry) (s : State) : (e.mark s).levels = s.levels := rfl
@[simp] theorem noteRead_levels (s : State) (b : Bool) : (s.noteRead b).levels = s.levels := rfl
@[simp] theorem advance_levels (s : State) : s.advance.levels = s.levels := rfl

/-- An entry's event, with what the entry sets set after it. -/
theorem performEntry_eq (e : Entry) (s : State) (b : Bool) :
    performEntry e (s.noteRead b) = (deliver e.dest (e.mark ((emit e.event s).noteRead b))).advance := by
  rw [performEntry, emit_mark, emit_noteRead]

/-- The init policy begins a WRITE of the next register with its value (R160). -/
theorem beginInit_eq (s : State) :
    s.beginInit = s.beginOp .write
      (writeCommand (if s.initSecond then s.params.regMap.trickle else s.params.regMap.control)) 0x00 [] := by
  unfold State.beginInit
  cases s.initSecond <;> rfl

/-- The default map keeps what R34 asks. -/
theorem defaultMap_wf : Config.regMap.wf = true := by decide +kernel

end Sys2Proof.Machine

namespace Sys2Proof.Proofs

open Sys2Proof Sys2Proof.Machine

/-- Settles O21: an entry of the trace emits its one event, and no other move reaches the latches or the trace. -/
theorem latchesChangeOnlyByTheirEvents : Obligations.LatchesChangeOnlyByTheirEvents := by
  intro s t hrst hstep
  obtain ⟨taken, u, rfl, hmove⟩ := step_move hstep
  simp only [hostTurn_trace, hostTurn_levels]
  cases hmove with
  | reset h => rw [hrst] at h; cases h
  | entry h hp e held => exact .inr ⟨e.event, by simp [performEntry_eq], by simp [performEntry_eq]⟩
  | init h hp hi => rw [beginInit_eq]; exact .inl ⟨rfl, rfl⟩
  | _ => exact .inl ⟨rfl, rfl⟩

/-- Settles O34: contention and the read of a missing value are only ever added to, and reset alone writes the abort record. -/
theorem faultsAreSticky : Obligations.FaultsAreSticky := by
  intro s t hstep
  obtain ⟨taken, u, rfl, hmove⟩ := step_move hstep
  simp only [hostTurn_contention, hostTurn_noValueRead, hostTurn_aborted]
  cases hmove with
  | entry h hp e held =>
    rw [performEntry_eq]
    exact ⟨fun hc => by simpa using emit_contention e.event s hc, fun hn => by simp [deliver_noValueRead, hn], by simp [h]⟩
  | init h hp hi => rw [beginInit_eq]; exact ⟨id, id, by simp [h]⟩
  | finishInit h hp hi held => exact ⟨id, fun hn => by simp [hn], by simp [h]⟩
  | respond h hp hi held rbuf => exact ⟨id, fun hn => by simp [hn], by simp [h]⟩
  | _ h => exact ⟨id, id, by simp [h]⟩

/-- Settles O22: the entry's event, then the delivery of its byte, field by field. -/
theorem sequencerPerformsTheNextEvent : Obligations.SequencerPerformsTheNextEvent := by
  intro s e hturn hw he
  refine ⟨sequencerStep s, step_sequencer hturn, ?_⟩
  rw [sequencerStep_event hw he, performEntry_eq]
  have hrx : ∀ v, assemble (emit e.event s).rx = some v →
      (e.mark ((emit e.event s).noteRead s.holdsOperands)).received = v := fun v h => received_of_assemble h
  refine ⟨by simp, by simp, by simp, by simp, ?bit, ?idx, ?wait, ?noWait, ?sample, ?noSample, ?rdata, ?noRdata, ?buf, ?noBuf,
    by simp, by simp, ?quiet, ?read, by simp, by simp, by simp, by simp, by simp, by simp, by simp, by simp, by simp,
    by simp, by simp, by simp, by simp, by simp, by simp⟩
  case bit => simp only [advance_bit, deliver_bit, mark_bit]; cases e.bit <;> simp
  case idx => simp only [advance_idx, deliver_idx, mark_idx]; cases e.idx <;> simp
  case wait => exact fun d hd => by simpa [hd] using emit_wait_waitCtr d s
  case noWait => exact fun hd => by simpa using emit_waitCtr hd s
  case sample =>
    intro k hk
    simp only [advance_rx, deliver_rx, mark_rx, noteRead_rx, hk, emit_sample_rx]
    exact ⟨cells_read_write_same _ _ _, fun j hj => cells_read_write_other _ _ hj⟩
  case noSample => exact fun hk => by simpa using emit_rx hk s
  case rdata =>
    intro hd v hv
    simp only [advance_rx, deliver_rx, mark_rx, noteRead_rx] at hv
    simp [hd, deliver, hrx v hv]
  case noRdata => exact fun hd => by simp [deliver_rspRdata_other hd]
  case buf =>
    intro k hd
    simp only [advance_rx, deliver_rx, mark_rx, noteRead_rx, advance_buf, hd, deliver_buf_same, mark_buf, noteRead_buf, emit_buf]
    refine ⟨fun v hv => ?_, fun j hj => cells_read_write_other _ _ hj⟩
    rw [hrx v hv, cells_read_write_same]
  case noBuf => exact fun hd => by simp [deliver_buf_other hd]
  case quiet => exact fun ha hce hclk => by simpa using emit_periph_quiet ha hce hclk
  case read => simp [deliver_noValueRead]

/-- Settles O24. -/
theorem waitsHoldTheSequencer : Obligations.WaitsHoldTheSequencer := by
  refine ⟨fun s d => emit_wait_waitCtr d s, fun s n hturn hn => ?_⟩
  rw [step_sequencer hturn, sequencerStep, hn]
  rfl

/-- Settles O35: every field but the peripheral and the abort record by reset's own lemmas, and those two at IDLE with CE low. -/
theorem resetGivesTheResetValues : Obligations.ResetGivesTheResetValues := by
  intro s hrst
  refine ⟨hostTurn false s.takeReset, by rw [step, turn_eq_reset hrst], ?_⟩
  refine ⟨by simp, by simp, by simp, by simp, by simp, by simp, by simp, by simp, by simp, by simp, by simp, by simp,
    by simp, by simp, by simp, by simp, by simp, by simp, by simp, by simp, by simp, fun hp hce => ?_⟩
  simp [hp, hce, Periph.atReset]

/-- Settles O36: the first clause by the start of an init write, the second by its end. -/
theorem initPolicyWritesControlThenTrickle : Obligations.InitPolicyWritesControlThenTrickle := by
  refine ⟨fun s hrst hc hp hi => ?_, fun s hturn hw hl hi => ?_, by decide⟩
  · intro addr
    have hdefault : s.params.regMap = Config.regMap → addr &&& 0xFE = if s.initSecond then 0x90 else 0x8E := fun hm => by
      simp only [addr, hm]
      cases s.initSecond <;> decide
    refine ⟨hostTurn false s.beginInit, by rw [step, turn_eq_init hrst hc hp hi], ?_⟩
    rw [hostTurn_operationTrace, beginInit_eq]
    exact ⟨by simp, by simp, by simp, by simp [writeCommand, addr], by simp, rfl,
      fun hm => by rw [← hdefault hm]; simp [writeCommand, addr], by rw [hostTurn_levels]; rfl, by simp, by simp [hi], by simp⟩
  · rw [step_sequencer hturn, sequencerStep_complete hw hl]
    rcases complete_cases (s.noteRead s.holdsOperands) with ⟨-, h⟩ | ⟨h, -⟩ | ⟨h, -⟩
    · rw [h]; rfl
    · cases hi.symm.trans h
    · cases hi.symm.trans h

/-- Settles O37: no request is answered while init writes are pending, and the sequencer ends their operations without a response. -/
theorem initPolicyGivesNoResponse : Obligations.InitPolicyGivesNoResponse := by
  intro s t hi hrst hstep
  have hbusy : s.reqReady = false := by simp [State.reqReady, hi]
  refine ⟨hbusy, ?_⟩
  obtain ⟨taken, u, rfl, hmove⟩ := step_move hstep
  simp only [hostTurn_rspValid, hostTurn_rspStatus, hostTurn_initPending, hostTurn_phase]
  cases hmove with
  | reset h => rw [hrst] at h; cases h
  | periph h p => simp [hi]
  | accept h hr op cmd tx buf => rw [hbusy] at hr; cases hr
  | reject h hr st => rw [hbusy] at hr; cases hr
  | init h hp => simp [beginInit_eq, hi]
  | tick h hp n => simp [hi]
  | entry h hp e held => simp [performEntry_eq, hi]
  | finishInit h hp _ held => simp [hp]
  | respond h hp hi' => rw [hi] at hi'; cases hi'

/-- Settles O51. -/
theorem resetStateIsGood : Obligations.ResetStateIsGood := by
  refine ⟨⟨rfl, defaultMap_wf, fun _ => ⟨rfl, rfl⟩, fun h => absurd rfl h,
    fun _ => ⟨rfl, fun _ => ⟨rfl, fun _ => rfl⟩, fun h => absurd rfl h⟩⟩, ?_, rfl, rfl, rfl⟩
  exact (memoriesCanonical_iff _).mpr ⟨⟨⟨rfl, cells_below_nil 8⟩, ⟨rfl, cells_below_nil 31⟩, rfl, cells_below_nil 31⟩,
    ⟨⟨rfl, nofun⟩, ⟨rfl, cells_below_nil 8⟩, rfl, cells_below_nil 8⟩, nofun⟩

end Sys2Proof.Proofs


/-! PROOFS. The primitives `write_bits` and `read_bits` (40_primitives.md R102 to R105): their events and what each entry carries. -/

namespace Sys2Proof.Machine

open Sys2Proof

/-! ### `write_bits` -/

theorem writeBits_risingLevels (phase : Phase) (idx : Option (Fin 31)) (v : Byte) (rel dout : Bool) (dir : Dir)
    (ce : Bool) : risingLevels ⟨ce, false, dout, dir⟩ (eventsOf (writeBits phase idx v rel)) = byteLevels v := by
  cases rel <;> rfl

theorem writeBits_afterAll (phase : Phase) (idx : Option (Fin 31)) (v : Byte) (rel dout : Bool) (dir : Dir) (ce : Bool) :
    (Levels.mk ce false dout dir).afterAll (eventsOf (writeBits phase idx v rel)) =
      ⟨ce, rel, v.getLsbD 7, if rel then .in else dir⟩ := by
  cases rel <;> rfl

theorem writeBits_length (phase : Phase) (idx : Option (Fin 31)) (v : Byte) (rel : Bool) :
    (writeBits phase idx v rel).length = if rel then 47 else 48 := by
  cases rel <;> rfl

/-- The events of one bit, by their places. -/
theorem writeBits_events (phase : Phase) (idx : Option (Fin 31)) (v : Byte) (rel : Bool) {i : Nat} (hi : i < 8) :
    ((eventsOf (writeBits phase idx v rel)).drop (6 * i)).take 4 =
      [.dout (v.getLsbD i), .wait .dsu, .clk true, .wait .dh] ∧
    ((eventsOf (writeBits phase idx v rel)).drop (6 * i + 4)).take 2 =
      if i = 7 ∧ rel = true then [.dir .in] else [.clk false, .wait .clr] := by
  interval_cases i <;> cases rel <;> exact ⟨rfl, rfl⟩

/-- The bit index of each entry, by its place (log 31). -/
theorem writeBits_bits (phase : Phase) (idx : Option (Fin 31)) (v : Byte) (rel : Bool) :
    (writeBits phase idx v rel).map Entry.bit =
      (List.range (if rel then 47 else 48)).map (fun j => some (Fin.ofNat 8 (j / 6))) := by
  cases rel <;> rfl

/-- No entry of `write_bits` delivers a byte, and each carries the burst index given. -/
theorem mem_writeBits {phase : Phase} {idx : Option (Fin 31)} {v : Byte} {rel : Bool} {e : Entry}
    (h : e ∈ writeBits phase idx v rel) : e.dest = .nowhere ∧ e.idx = idx := by
  obtain ⟨i, -, hi⟩ := List.mem_flatMap.mp h
  rcases List.mem_append.mp hi with hi | hi
  · simp only [List.mem_cons, List.not_mem_nil, or_false] at hi
    rcases hi with rfl | rfl | rfl | rfl <;> exact ⟨rfl, rfl⟩
  · split at hi <;> simp only [List.mem_cons, List.not_mem_nil, or_false] at hi
    · subst hi
      exact ⟨rfl, rfl⟩
    · rcases hi with rfl | rfl <;> exact ⟨rfl, rfl⟩

/-! ### `read_bits` -/

theorem readBits_counts (clk : Bool) (idx : Option (Fin 31)) (dest : Dest) :
    (eventsOf (readBits clk idx dest)).count (.clk true) = (if clk then 7 else 8) ∧
    (eventsOf (readBits clk idx dest)).count (.clk false) = 8 := by
  cases clk <;> exact ⟨rfl, rfl⟩

theorem readBits_afterAll (clk ce dout : Bool) (dir : Dir) (idx : Option (Fin 31)) (dest : Dest) :
    (Levels.mk ce clk dout dir).afterAll (eventsOf (readBits clk idx dest)) = ⟨ce, false, dout, dir⟩ := by
  cases clk <;> rfl

theorem readBits_length (clk : Bool) (idx : Option (Fin 31)) (dest : Dest) :
    (readBits clk idx dest).length = 40 - if clk then 1 else 0 := by
  cases clk <;> rfl

/-- The events of one bit, by their places: the first bit has no rise where the clock is high at entry (R105). -/
theorem readBits_events (clk : Bool) (idx : Option (Fin 31)) (dest : Dest) (i : Fin 8) :
    ((eventsOf (readBits clk idx dest)).drop (5 * i.val + 1 - if clk then 1 else 0)).take 4 =
      [.wait .rh, .clk false, .wait .rl, .sample i] ∧
    (i ≠ 0 ∨ clk = false →
      (eventsOf (readBits clk idx dest))[5 * i.val - if clk then 1 else 0]? = some (.clk true)) := by
  refine ⟨by fin_cases i <;> cases clk <;> rfl, ?_⟩
  rintro (hi | rfl)
  · fin_cases i
    · exact absurd rfl hi
    all_goals cases clk <;> rfl
  · fin_cases i <;> rfl

/-- The bit index of each entry, by its place (log 31). -/
theorem readBits_bits (clk : Bool) (idx : Option (Fin 31)) (dest : Dest) :
    (readBits clk idx dest).map Entry.bit =
      (List.range (40 - if clk then 1 else 0)).map (fun j => some (Fin.ofNat 8 ((j + if clk then 1 else 0) / 5))) := by
  cases clk <;> rfl

/-- Every entry of `read_bits` is of the phase READING and carries the burst index given; the last sample alone delivers. -/
theorem mem_readBits {clk : Bool} {idx : Option (Fin 31)} {dest : Dest} {e : Entry} (h : e ∈ readBits clk idx dest) :
    e.phase = .reading ∧ e.idx = idx ∧ e.dest = if e.event = .sample 7 then dest else .nowhere := by
  obtain ⟨i, -, hi⟩ := List.mem_flatMap.mp h
  rcases List.mem_append.mp hi with hi | hi
  · split at hi <;> simp only [List.mem_cons, List.not_mem_nil, or_false] at hi
    subst hi
    exact ⟨rfl, rfl, rfl⟩
  · simp only [List.mem_cons, List.not_mem_nil, or_false] at hi
    rcases hi with rfl | rfl | rfl | rfl <;> simp

/-- The place of an entry gives its bit index, where all the bit indexes are known. -/
theorem bit_of_place {t : List Entry} {n : Nat} (f : Nat → Nat)
    (hbits : t.map Entry.bit = (List.range n).map (fun j => some (Fin.ofNat 8 (f j)))) (hf : ∀ j, j < n → f j < 8)
    {j : Nat} {e : Entry} (he : t[j]? = some e) : ∃ i, e.bit = some i ∧ i.val = f j := by
  have hj : j < n := by
    have hlt := (List.getElem?_eq_some_iff.mp he).1
    have hlen := congrArg List.length hbits
    simp only [List.length_map, List.length_range] at hlen
    omega
  have hbit : (t.map Entry.bit)[j]? = some e.bit := by rw [List.getElem?_map, he]; rfl
  rw [hbits, List.getElem?_map, List.getElem?_range hj] at hbit
  refine ⟨_, (Option.some.inj hbit).symm, ?_⟩
  simp [Fin.ofNat, Nat.mod_eq_of_lt (hf j hj)]

end Sys2Proof.Machine

namespace Sys2Proof.Proofs

open Sys2Proof Sys2Proof.Machine

/-- Settles O29: the events are a list of known length, in which each clause is read off. -/
theorem writeBitsSendsLeastSignificantFirst : Obligations.WriteBitsSendsLeastSignificantFirst := by
  intro phase idx v rel dout dir ce lv t es
  refine ⟨writeBits_risingLevels phase idx v rel dout dir ce, writeBits_afterAll phase idx v rel dout dir ce,
    (List.length_map _).trans (writeBits_length phase idx v rel), fun i hi => writeBits_events phase idx v rel hi,
    fun j e he => ?_⟩
  obtain ⟨hdest, hidx⟩ := mem_writeBits (List.mem_of_getElem? he)
  refine ⟨hdest, hidx, bit_of_place (fun j => j / 6) (writeBits_bits phase idx v rel) (fun j hj => ?_) he⟩
  split at hj <;> omega

/-- Settles O31: the events are a list of known length, in which each clause is read off. -/
theorem readBitsFromEitherClockLevel : Obligations.ReadBitsFromEitherClockLevel := by
  intro clk ce dout dir idx dest t es early
  obtain ⟨hrise, hfall⟩ := readBits_counts clk idx dest
  refine ⟨hrise, hfall, readBits_afterAll clk ce dout dir idx dest,
    (List.length_map _).trans (readBits_length clk idx dest), fun i => readBits_events clk idx dest i, fun j e he => ?_⟩
  obtain ⟨hphase, hidx, hdest⟩ := mem_readBits (List.mem_of_getElem? he)
  refine ⟨hphase, hidx, hdest, bit_of_place (fun j => (j + early) / 5) (readBits_bits clk idx dest) (fun j hj => ?_) he⟩
  simp only [early]
  omega

end Sys2Proof.Proofs


/-! PROOFS. The six traces (41_single_register.md R130, R131; 42_burst.md R140 to R143): a summary of a list of entries that is put together
from the summaries of its parts, and from it the statement about the traces' shapes. -/

namespace Sys2Proof.Machine

open Sys2Proof

/-! ### The summary of a list of entries -/

/-- What TraceShapes looks at in a trace: how many events, the data levels at the rising edges of SCLK, how many falling edges, the `DIR`
events, the phases, the samples, where received bytes go, and the burst indexes. -/
structure Shape where
  length   : Nat
  rising   : List Bool
  falling  : Nat
  dirs     : List Dir
  phases   : List Phase
  samples  : List (Fin 8)
  received : List Dest
  indexes  : List (Fin 31)

/-- The summary of two lists of entries, one after the other. -/
def Shape.append (a b : Shape) : Shape where
  length   := a.length + b.length
  rising   := a.rising ++ b.rising
  falling  := a.falling + b.falling
  dirs     := a.dirs ++ b.dirs
  phases   := a.phases ++ b.phases
  samples  := a.samples ++ b.samples
  received := a.received ++ b.received
  indexes  := a.indexes ++ b.indexes

/-- The summary of a list of entries, from given latches. -/
def shapeOf (lv : Levels) (t : List Entry) : Shape where
  length   := t.length
  rising   := risingLevels lv (eventsOf t)
  falling  := fallingCount lv (eventsOf t)
  dirs     := dirEvents (eventsOf t)
  phases   := t.map (fun e => e.phase)
  samples  := samplesOf (eventsOf t)
  received := receivedAt t
  indexes  := t.filterMap (fun e => e.idx)

theorem afterAll_append (lv : Levels) (as bs : List Event) : lv.afterAll (as ++ bs) = (lv.afterAll as).afterAll bs :=
  List.foldl_append

theorem risingLevels_append (lv : Levels) (as bs : List Event) :
    risingLevels lv (as ++ bs) = risingLevels lv as ++ risingLevels (lv.afterAll as) bs := by
  induction as generalizing lv with
  | nil => rfl
  | cons e as ih => simp only [List.cons_append, risingLevels, ih, List.append_assoc]; rfl

theorem fallingCount_append (lv : Levels) (as bs : List Event) :
    fallingCount lv (as ++ bs) = fallingCount lv as + fallingCount (lv.afterAll as) bs := by
  induction as generalizing lv with
  | nil => exact (Nat.zero_add _).symm
  | cons e as ih => simp only [List.cons_append, fallingCount, ih, Nat.add_assoc]; rfl

theorem dirEvents_append (as bs : List Event) : dirEvents (as ++ bs) = dirEvents as ++ dirEvents bs := by
  induction as with
  | nil => rfl
  | cons e as ih => cases e <;> simp [dirEvents, ih]

theorem samplesOf_append (as bs : List Event) : samplesOf (as ++ bs) = samplesOf as ++ samplesOf bs := by
  induction as with
  | nil => rfl
  | cons e as ih => cases e <;> simp [samplesOf, ih]

theorem eventsOf_append (as bs : List Entry) : eventsOf (as ++ bs) = eventsOf as ++ eventsOf bs := List.map_append

/-- The summary of two lists is put together from theirs. -/
theorem shapeOf_append (lv : Levels) (as bs : List Entry) :
    shapeOf lv (as ++ bs) = (shapeOf lv as).append (shapeOf (lv.afterAll (eventsOf as)) bs) := by
  simp [shapeOf, Shape.append, eventsOf_append, risingLevels_append, fallingCount_append, dirEvents_append,
    samplesOf_append, receivedAt]

/-! ### The parts of a trace -/

/-- The burst index at each of `n` events, where there is one. -/
def indexEach (n : Nat) (idx : Option (Fin 31)) : List (Fin 31) := (idx.map (List.replicate n)).getD []

theorem shapeOf_start (dout : Bool) (dir : Dir) :
    shapeOf ⟨false, false, dout, dir⟩ startEntries = ⟨3, [], 0, [.out], List.replicate 3 .active, [], [], []⟩ := rfl

theorem shapeOf_stop (lv : Levels) :
    shapeOf lv stopEntries = ⟨2, [], 0, [], List.replicate 2 .closing, [], [], []⟩ := rfl

theorem writeBits_fallingCount (phase : Phase) (idx : Option (Fin 31)) (v : Byte) (rel ce dout : Bool) (dir : Dir) :
    fallingCount ⟨ce, false, dout, dir⟩ (eventsOf (writeBits phase idx v rel)) = if rel then 7 else 8 := by
  cases rel <;> simp [writeBits, bitIndices, writeBit, eventsOf, fallingCount, Levels.after]

theorem readBits_fallingCount (ce clk dout : Bool) (dir : Dir) (idx : Option (Fin 31)) (dest : Dest) :
    fallingCount ⟨ce, clk, dout, dir⟩ (eventsOf (readBits clk idx dest)) = 8 := by
  cases clk <;> simp [readBits, bitIndices, readBit, eventsOf, fallingCount, Levels.after]

/-- `write_bits` that keeps the line. -/
theorem shapeOf_writeBits (phase : Phase) (idx : Option (Fin 31)) (v : Byte) (ce dout : Bool) (dir : Dir) :
    shapeOf ⟨ce, false, dout, dir⟩ (writeBits phase idx v false) =
      ⟨48, byteLevels v, 8, [], List.replicate 48 phase, [], [], indexEach 48 idx⟩ := by
  rw [shapeOf, writeBits_fallingCount]
  cases idx <;> rfl

/-- `write_bits` that hands the line off (R103). -/
theorem shapeOf_writeBits_release (phase : Phase) (v : Byte) (ce dout : Bool) (dir : Dir) :
    shapeOf ⟨ce, false, dout, dir⟩ (writeBits phase none v true) =
      ⟨47, byteLevels v, 7, [.in], List.replicate 46 phase ++ [.lineReleased], [], [], []⟩ := by
  rw [shapeOf, writeBits_fallingCount]
  rfl

/-- The summary of `read_bits`, with the data latch at `dout` throughout. -/
def readShape (dout clk : Bool) (idx : Option (Fin 31)) (dest : Dest) : Shape where
  length   := if clk then 39 else 40
  rising   := List.replicate (if clk then 7 else 8) dout
  falling  := 8
  dirs     := []
  phases   := List.replicate (if clk then 39 else 40) .reading
  samples  := bitIndices
  received := [dest]
  indexes  := indexEach (if clk then 39 else 40) idx

theorem shapeOf_readBits (ce clk dout : Bool) (dir : Dir) (idx : Option (Fin 31)) (dest : Dest) :
    shapeOf ⟨ce, clk, dout, dir⟩ (readBits clk idx dest) = readShape dout clk idx dest := by
  rw [shapeOf, readBits_fallingCount]
  cases clk <;> cases idx <;> rfl

/-! ### The bursts -/

/-- A count for each byte of a burst, one byte more. -/
theorem mul_length_cons {α : Type} (n : Nat) (x : α) (l : List α) : n * (x :: l).length = n + n * l.length := by
  rw [List.length_cons, Nat.mul_succ, Nat.add_comm]

/-- The data bytes of a burst write. -/
theorem shapeOf_burstWrites (bytes : List (Fin 31 × Byte)) (ce dout : Bool) (dir : Dir) :
    shapeOf ⟨ce, false, dout, dir⟩ (bytes.flatMap (fun kv => writeBits .writing (some kv.1) kv.2 false)) =
      ⟨48 * bytes.length, bytes.flatMap (fun kv => byteLevels kv.2), 8 * bytes.length, [],
        List.replicate (48 * bytes.length) .writing, [], [], bytes.flatMap (fun kv => List.replicate 48 kv.1)⟩ := by
  induction bytes generalizing dout with
  | nil => rfl
  | cons kv rest ih =>
    rw [List.flatMap_cons, shapeOf_append, writeBits_afterAll, shapeOf_writeBits, if_neg (by decide), ih]
    simp only [Shape.append, mul_length_cons, List.flatMap_cons, List.replicate_add]
    rfl

/-- The data bytes of a burst read after the first, each with the clock low at its entry (R105). -/
theorem shapeOf_laterReads {ks : List (Fin 31)} (hks : ∀ k ∈ ks, k ≠ 0) (ce dout : Bool) (dir : Dir) :
    shapeOf ⟨ce, false, dout, dir⟩ (ks.flatMap (fun k => readBits (k == 0) (some k) (.buf k))) =
      ⟨40 * ks.length, List.replicate (8 * ks.length) dout, 8 * ks.length, [], List.replicate (40 * ks.length) .reading,
        (List.replicate ks.length bitIndices).flatten, ks.map Dest.buf, ks.flatMap (List.replicate 40)⟩ := by
  induction ks with
  | nil => rfl
  | cons k rest ih =>
    have hk : (k == 0) = false := by simpa using hks k List.mem_cons_self
    rw [List.flatMap_cons, shapeOf_append, hk, readBits_afterAll, shapeOf_readBits,
      ih fun j hj => hks j (List.mem_cons_of_mem k hj)]
    simp only [Shape.append, mul_length_cons, List.flatMap_cons, List.replicate_add]
    rfl

/-- The burst indexes are 0 and then others. -/
theorem burstIndices_cons {n : Nat} (hn : n ≤ 30) :
    ∃ rest, burstIndices (n + 1) = 0 :: rest ∧ (∀ k ∈ rest, k ≠ 0) ∧ rest.length = n := by
  refine ⟨(burstIndices (n + 1)).tail, rfl, fun k hk h0 => ?_, by simp [burstIndices]; omega⟩
  have hpos := (List.pairwise_cons.mp (show (0 :: (burstIndices (n + 1)).tail).Pairwise _ from
    burstIndices_pairwise (n + 1))).1 k hk
  subst h0
  exact absurd hpos (Nat.lt_irrefl _)

/-- The data bytes of a burst read of `n + 1` bytes, from the hand-off. -/
theorem shapeOf_burstReads {n : Nat} (hn : n ≤ 30) (ce dout : Bool) (dir : Dir) :
    shapeOf ⟨ce, true, dout, dir⟩ ((burstIndices (n + 1)).flatMap (fun k => readBits (k == 0) (some k) (.buf k))) =
      ⟨39 + 40 * n, List.replicate (7 + 8 * n) dout, 8 + 8 * n, [], List.replicate (39 + 40 * n) .reading,
        (List.replicate (n + 1) bitIndices).flatten, (burstIndices (n + 1)).map Dest.buf,
        (burstIndices (n + 1)).flatMap (fun k => List.replicate (if k = 0 then 39 else 40) k)⟩ := by
  obtain ⟨rest, hcons, hrest, rfl⟩ := burstIndices_cons hn
  have hidx : rest.flatMap (fun k => List.replicate (if k = 0 then 39 else 40) k) = rest.flatMap (List.replicate 40) :=
    List.flatMap_congr fun k hk => by rw [if_neg (hrest k hk)]
  rw [hcons, List.flatMap_cons, shapeOf_append, beq_self_eq_true, readBits_afterAll, shapeOf_readBits,
    shapeOf_laterReads hrest, List.replicate_succ (n := rest.length)]
  simp only [Shape.append, List.flatMap_cons, hidx, List.replicate_add]
  rfl

/-! ### The traces -/

/-- The summary of a transaction that reads, from its body's. -/
def Shape.reading (b : Shape) (cmd : Byte) : Shape where
  length   := 52 + b.length
  rising   := byteLevels cmd ++ b.rising
  falling  := 7 + b.falling
  dirs     := [.out, .in] ++ b.dirs
  phases   := List.replicate 3 .active ++ List.replicate 46 .addressing ++ [.lineReleased] ++ b.phases ++ List.replicate 2 .closing
  samples  := b.samples
  received := b.received
  indexes  := b.indexes

/-- The summary of a transaction that writes, from its body's. -/
def Shape.writing (b : Shape) (cmd : Byte) : Shape where
  length   := 53 + b.length
  rising   := byteLevels cmd ++ b.rising
  falling  := 8 + b.falling
  dirs     := [.out] ++ b.dirs
  phases   := List.replicate 3 .active ++ List.replicate 48 .addressing ++ b.phases ++ List.replicate 2 .closing
  samples  := b.samples
  received := b.received
  indexes  := b.indexes

/-- A transaction is `start`, the command byte, a body from the latches these leave, and `stop` (R100, R101, R103). -/
theorem shapeOf_transaction (cmd : Byte) (rel : Bool) (body : List Entry) (dout : Bool) (dir : Dir) :
    shapeOf ⟨false, false, dout, dir⟩ (startEntries ++ writeBits .addressing none cmd rel ++ body ++ stopEntries) =
      if rel then (shapeOf ⟨true, true, cmd.getLsbD 7, .in⟩ body).reading cmd
      else (shapeOf ⟨true, false, cmd.getLsbD 7, .out⟩ body).writing cmd := by
  have hstart : (Levels.mk false false dout dir).afterAll (eventsOf startEntries) = ⟨true, false, dout, .out⟩ := rfl
  rw [shapeOf_append, shapeOf_append, shapeOf_append, eventsOf_append, afterAll_append, hstart, writeBits_afterAll,
    shapeOf_start, shapeOf_stop]
  cases rel
  · rw [shapeOf_writeBits]
    simp [Shape.append, Shape.writing, indexEach]
    omega
  · rw [shapeOf_writeBits_release]
    simp [Shape.append, Shape.reading]
    omega

theorem shapeOf_readTrace (cmd : Byte) (dout : Bool) (dir : Dir) :
    shapeOf ⟨false, false, dout, dir⟩ (readTrace cmd) = (readShape (cmd.getLsbD 7) true none .rdata).reading cmd := by
  rw [readTrace, shapeOf_transaction, if_pos rfl, shapeOf_readBits]

theorem shapeOf_writeTrace (cmd tx : Byte) (dout : Bool) (dir : Dir) :
    shapeOf ⟨false, false, dout, dir⟩ (writeTrace cmd tx) =
      (Shape.mk 48 (byteLevels tx) 8 [] (List.replicate 48 .writing) [] [] []).writing cmd := by
  rw [writeTrace, shapeOf_transaction, if_neg (by decide), shapeOf_writeBits]
  rfl

theorem shapeOf_burstReadTrace (cmd : Byte) {n : Nat} (hn : n ≤ 30) (dout : Bool) (dir : Dir) :
    shapeOf ⟨false, false, dout, dir⟩ (burstReadTrace cmd (n + 1)) =
      (Shape.mk (39 + 40 * n) (List.replicate (7 + 8 * n) (cmd.getLsbD 7)) (8 + 8 * n) []
        (List.replicate (39 + 40 * n) .reading) (List.replicate (n + 1) bitIndices).flatten
        ((burstIndices (n + 1)).map Dest.buf)
        ((burstIndices (n + 1)).flatMap (fun k => List.replicate (if k = 0 then 39 else 40) k))).reading cmd := by
  rw [burstReadTrace, shapeOf_transaction, if_pos rfl, shapeOf_burstReads hn]

theorem shapeOf_burstWriteTrace (cmd : Byte) (bytes : List (Fin 31 × Byte)) (dout : Bool) (dir : Dir) :
    shapeOf ⟨false, false, dout, dir⟩ (burstWriteTrace cmd bytes) =
      (Shape.mk (48 * bytes.length) (bytes.flatMap (fun kv => byteLevels kv.2)) (8 * bytes.length) []
        (List.replicate (48 * bytes.length) .writing) [] []
        (bytes.flatMap (fun kv => List.replicate 48 kv.1))).writing cmd := by
  rw [burstWriteTrace, shapeOf_transaction, if_neg (by decide), shapeOf_burstWrites]

/-! ### Deliveries -/

/-- No entry but a last sample delivers a byte. -/
def DeliversAtLastSample (t : List Entry) : Prop := ∀ e ∈ t, e.event = .sample 7 ∨ e.dest = .nowhere

theorem writeBits_delivers (phase : Phase) (idx : Option (Fin 31)) (v : Byte) (rel : Bool) :
    DeliversAtLastSample (writeBits phase idx v rel) := fun _ he => .inr (mem_writeBits he).1

theorem readBits_delivers (clk : Bool) (idx : Option (Fin 31)) (dest : Dest) :
    DeliversAtLastSample (readBits clk idx dest) := fun e he => by
  obtain ⟨-, -, hdest⟩ := mem_readBits he
  by_cases h : e.event = .sample 7
  · exact .inl h
  · exact .inr (by rw [hdest, if_neg h])

theorem flatMap_delivers {α : Type} (l : List α) {f : α → List Entry} (hf : ∀ a, DeliversAtLastSample (f a)) :
    DeliversAtLastSample (l.flatMap f) := fun e he => by
  obtain ⟨a, -, ha⟩ := List.mem_flatMap.mp he
  exact hf a e ha

theorem transaction_delivers (cmd : Byte) (rel : Bool) {body : List Entry} (hb : DeliversAtLastSample body) :
    DeliversAtLastSample (startEntries ++ writeBits .addressing none cmd rel ++ body ++ stopEntries) := by
  have hstart : ∀ e ∈ startEntries, e.dest = .nowhere := by decide
  have hstop : ∀ e ∈ stopEntries, e.dest = .nowhere := by decide
  intro e he
  simp only [List.mem_append] at he
  rcases he with ((he | he) | he) | he
  · exact .inr (hstart e he)
  · exact writeBits_delivers _ _ _ _ e he
  · exact hb e he
  · exact .inr (hstop e he)

theorem readTrace_delivers (cmd : Byte) : DeliversAtLastSample (readTrace cmd) :=
  transaction_delivers cmd true (readBits_delivers _ _ _)

theorem writeTrace_delivers (cmd tx : Byte) : DeliversAtLastSample (writeTrace cmd tx) :=
  transaction_delivers cmd false (writeBits_delivers _ _ _ _)

theorem burstReadTrace_delivers (cmd : Byte) (n : Nat) : DeliversAtLastSample (burstReadTrace cmd n) :=
  transaction_delivers cmd true (flatMap_delivers _ fun _ => readBits_delivers _ _ _)

theorem burstWriteTrace_delivers (cmd : Byte) (bytes : List (Fin 31 × Byte)) :
    DeliversAtLastSample (burstWriteTrace cmd bytes) :=
  transaction_delivers cmd false (flatMap_delivers _ fun _ => writeBits_delivers _ _ _ _)

/-- The first eight rising edges of a transaction carry its command byte. -/
theorem take_byteLevels (cmd : Byte) (l : List Bool) : (byteLevels cmd ++ l).take 8 = byteLevels cmd :=
  List.take_left' rfl

theorem byteLevels_length (v : Byte) : (byteLevels v).length = 8 := rfl

/-- Eight edges for each byte. -/
theorem byteLevels_flatMap_length (bytes : List (Fin 31 × Byte)) :
    (bytes.flatMap (fun kv => byteLevels kv.2)).length = 8 * bytes.length := by
  simp [List.length_flatMap, byteLevels_length, Nat.mul_comm]

end Sys2Proof.Machine

namespace Sys2Proof.Proofs

open Sys2Proof Sys2Proof.Machine

/-- Settles O28: each clause is a field of the traces' summaries, but for the deliveries, which the entries are gone through for. -/
theorem traceShapes : Obligations.TraceShapes := by
  intro cmd tx clock ram dout dir hclock hram lv shape line sent phases reads writes samples deliversElsewhere indexes
  have hfields : ∀ t S, shapeOf lv t = S →
      shape t = (S.length, S.rising.length, S.falling, S.dirs) ∧ line t = S.rising ∧ phases t = S.phases ∧
        samples t = S.samples ∧ receivedAt t = S.received ∧ indexes t = S.indexes := by
    rintro t _ rfl
    exact ⟨rfl, rfl, rfl, rfl, rfl, rfl⟩
  obtain ⟨r1, r2, r3, r4, r5, r6⟩ := hfields _ _ (shapeOf_readTrace cmd dout dir)
  obtain ⟨w1, w2, w3, w4, -, w6⟩ := hfields _ _ (shapeOf_writeTrace cmd tx dout dir)
  obtain ⟨c1, c2, c3, c4, c5, c6⟩ := hfields _ _ (shapeOf_burstReadTrace cmd (n := 7) (by decide) dout dir)
  obtain ⟨d1, d2, d3, d4, -, d6⟩ := hfields _ _ (shapeOf_burstWriteTrace cmd clock dout dir)
  obtain ⟨m1, m2, m3, m4, m5, m6⟩ := hfields _ _ (shapeOf_burstReadTrace cmd (n := 30) (by decide) dout dir)
  obtain ⟨n1, n2, n3, n4, -, n6⟩ := hfields _ _ (shapeOf_burstWriteTrace cmd ram dout dir)
  have hdelivers : ∀ t, DeliversAtLastSample t → ¬ deliversElsewhere t := by
    rintro t ht ⟨e, he, hev, hdest⟩
    exact (ht e he).elim hev hdest
  refine ⟨⟨r1, w1, c1.trans ?_, d1.trans ?_, m1.trans ?_, n1.trans ?_⟩,
    ⟨r2 ▸ take_byteLevels cmd _, w2, c2 ▸ take_byteLevels cmd _, d2, m2 ▸ take_byteLevels cmd _, n2⟩,
    ⟨r3, w3, c3, d3.trans ?_, m3, n3.trans ?_⟩, ⟨r4, w4, c4, d4, m4, n4⟩, ⟨r5, c5, m5, fun t ht => hdelivers t ?_⟩,
    ⟨r6, w6, c6, d6, m6, n6⟩⟩
  · simp only [Shape.reading, List.length_append, byteLevels_length, List.length_replicate, List.append_nil]
  · simp only [Shape.writing, List.length_append, byteLevels_length, byteLevels_flatMap_length, List.append_nil, hclock]
  · simp only [Shape.reading, List.length_append, byteLevels_length, List.length_replicate, List.append_nil]
  · simp only [Shape.writing, List.length_append, byteLevels_length, byteLevels_flatMap_length, List.append_nil, hram]
  · simp only [Shape.writing, hclock]
    rfl
  · simp only [Shape.writing, hram]
    rfl
  · simp only [List.mem_cons, List.not_mem_nil, or_false] at ht
    rcases ht with rfl | rfl | rfl | rfl | rfl | rfl
    · exact readTrace_delivers cmd
    · exact writeTrace_delivers cmd tx
    · exact burstReadTrace_delivers cmd 8
    · exact burstWriteTrace_delivers cmd clock
    · exact burstReadTrace_delivers cmd 31
    · exact burstWriteTrace_delivers cmd ram

end Sys2Proof.Proofs


/-! PROOFS. A byte received (40_primitives.md R104; 60_exceptions.md R214, R216, R223): `read_bits` against a peripheral that is sending. -/

namespace Sys2Proof.Machine

open Sys2Proof

/-! ### The peripheral that sends -/

/-- A chip or responder in the data phase of a read, with a byte at its pointer to send. -/
structure Periph.Sending (p : Periph) : Prop where
  present : p.kind ≠ .absent
  mode    : p.mode = .rdata
  pointer : p.ptr < p.limit

/-- A sending peripheral takes nothing in at a rising edge (R213, R223). -/
theorem rise_sending {p : Periph} (h : p.Sending) (level : Bool) : p.rise level = p := by
  obtain ⟨hk, hm, -⟩ := h
  cases hkind : p.kind
  case absent => exact absurd hkind hk
  all_goals simp [Periph.rise, hkind, hm]

/-- At a falling edge it presents the next bit of its byte and counts it (R214, R223). -/
theorem fall_sending {p : Periph} (h : p.Sending) :
    p.fall = Periph.countOut { p with drive := true, driveBit := p.outByte.getLsbD p.nbits } := by
  obtain ⟨hk, hm, hp⟩ := h
  cases hkind : p.kind
  case absent => exact absurd hkind hk
  all_goals simp [Periph.fall, hkind, hm, hp]

/-- Where a sending peripheral stands when it has presented `n` bits of its byte: the last of them is on the line, and after the eighth
the byte is over, as `countOut` says. -/
def Periph.presented (p : Periph) (n : Nat) : Periph :=
  if n = 0 then p
  else { p with
    nbits := n % 8, drive := true, driveBit := p.outByte.getLsbD (n - 1),
    ptr := if n = 8 ∧ p.burst = true then p.ptr + 1 else p.ptr,
    mode := if n = 8 ∧ p.kind = .chip ∧ p.burst = false then .ignore else p.mode }

/-- Before the eighth bit only the count and the driver have changed. -/
theorem presented_eq {p : Periph} (h : p.nbits = 0) {n : Nat} (hn : n < 8) :
    ∃ drive driveBit, p.presented n = { p with nbits := n, drive := drive, driveBit := driveBit } := by
  unfold Periph.presented
  split
  · rename_i h0
    subst h0
    exact ⟨p.drive, p.driveBit, by rw [← h]⟩
  · exact ⟨true, p.outByte.getLsbD (n - 1), by simp [Nat.mod_eq_of_lt hn, Nat.ne_of_lt hn]⟩

theorem presented_sending {p : Periph} (h : p.Sending) (hb : p.nbits = 0) {n : Nat} (hn : n < 8) :
    (p.presented n).Sending := by
  obtain ⟨drive, driveBit, hp⟩ := presented_eq hb hn
  rw [hp]
  exact ⟨h.present, h.mode, h.pointer⟩

/-- Each falling edge presents one bit more. -/
theorem presented_fall {p : Periph} (h : p.Sending) (hb : p.nbits = 0) {n : Nat} (hn : n < 8) :
    (p.presented n).fall = p.presented (n + 1) := by
  rw [fall_sending (presented_sending h hb hn), countOut_eq]
  obtain ⟨drive, driveBit, hp⟩ := presented_eq hb hn
  rw [hp, Periph.presented, if_neg (Nat.succ_ne_zero n)]
  have hcount : (n + 1) % 8 = if n + 1 = 8 then 0 else n + 1 := by split <;> omega
  rw [hcount]
  rfl

/-! ### `read_bits` -/

@[simp] theorem emit_clk (e : Event) (s : State) : (emit e s).clk = (s.levels.after e).clk :=
  congrArg Levels.clk (emit_levels e s)
@[simp] theorem emit_dir (e : Event) (s : State) : (emit e s).dir = (s.levels.after e).dir :=
  congrArg Levels.dir (emit_levels e s)

/-- A clock edge reaches the peripheral; a clock event without an edge does not (R213, R214). -/
theorem emit_clk_periph {s : State} (ha : s.aborted = false) (b : Bool) :
    (emit (.clk b) s).periph =
      if b && !s.clk then s.periph.rise s.line else if !b && s.clk then s.periph.fall else s.periph := by
  simp [emit, applyEvent, State.afterAbort, ha]

theorem emit_wait_periph {s : State} (ha : s.aborted = false) (d : Delay) : (emit (.wait d) s).periph = s.periph :=
  emit_periph_quiet ha nofun nofun

theorem emit_sample_periph {s : State} (ha : s.aborted = false) (k : Fin 8) : (emit (.sample k) s).periph = s.periph :=
  emit_periph_quiet ha nofun nofun

/-- Where the peripheral alone drives, the line is at its bit (R205). -/
theorem line_of_released {s : State} (hd : s.dir = .in) (hp : s.periph.drive = true) : s.line = s.periph.driveBit := by
  simp [State.line, hd, hp]

theorem emitAll_append (as bs : List Event) (s : State) : emitAll (as ++ bs) s = emitAll bs (emitAll as s) :=
  List.foldl_append

/-- What every bit of a byte keeps from one to the next holds after the byte. -/
theorem emitAll_bits (P : Nat → State → Prop) {f : Fin 8 → List Entry}
    (hf : ∀ (i : Fin 8) s, P i.val s → P (i.val + 1) (emitAll (eventsOf (f i)) s)) {s : State} (h : P 0 s) :
    P 8 (emitAll (eventsOf (bitIndices.flatMap f)) s) := by
  simp only [bitIndices, List.flatMap_cons, List.flatMap_nil, List.append_nil, eventsOf_append, emitAll_append]
  exact hf 7 _ (hf 6 _ (hf 5 _ (hf 4 _ (hf 3 _ (hf 2 _ (hf 1 _ (hf 0 _ h)))))))

/-- The engine in the data phase of a read, with `n` bits of the byte `v` in `rx`: the line released, the clock at `clk`, and the
peripheral at `p`. -/
structure State.Receiving (s : State) (clk : Bool) (v : Byte) (n : Nat) (p : Periph) : Prop where
  clk      : s.clk = clk
  dir      : s.dir = .in
  aborted  : s.aborted = false
  received : ∀ j, j < n → Cells.read s.rx j = some (v.getLsbD j)
  periph   : s.periph = p

/-- The rise that a low clock needs before a bit reaches nothing but the clock latch. -/
theorem emit_rise_receiving {s : State} {v : Byte} {n : Nat} {p : Periph} (h : s.Receiving false v n p) (hp : p.Sending) :
    (emit (.clk true) s).Receiving true v n p where
  clk      := by simp [Levels.after]
  dir      := by simp [Levels.after, State.levels, h.dir]
  aborted  := by simp [h.aborted]
  received := by rw [emit_rx (e := .clk true) (fun _ => nofun)]; exact h.received
  periph   := by
    rw [emit_clk_periph h.aborted, h.clk, h.periph]
    exact rise_sending hp _

/-- A wait changes none of it. -/
theorem emit_wait_receiving {s : State} {clk : Bool} {v : Byte} {n : Nat} {p : Periph} (h : s.Receiving clk v n p)
    (d : Delay) : (emit (.wait d) s).Receiving clk v n p where
  clk      := by simp [Levels.after, State.levels, h.clk]
  dir      := by simp [Levels.after, State.levels, h.dir]
  aborted  := by simp [h.aborted]
  received := by rw [emit_rx (e := .wait d) (fun _ => nofun)]; exact h.received
  periph   := by rw [emit_wait_periph h.aborted, h.periph]

/-- The falling edge of a bit has the peripheral present it. -/
theorem emit_fall_receiving {s : State} {v : Byte} {n : Nat} {p : Periph} (h : s.Receiving true v n p) :
    (emit (.clk false) s).Receiving false v n p.fall where
  clk      := by simp [Levels.after]
  dir      := by simp [Levels.after, State.levels, h.dir]
  aborted  := by simp [h.aborted]
  received := by rw [emit_rx (e := .clk false) (fun _ => nofun)]; exact h.received
  periph   := by
    rw [emit_clk_periph h.aborted, h.clk, h.periph]
    rfl

/-- The sample of a bit takes the bit on the line into `rx`. -/
theorem emit_sample_receiving {s : State} {clk : Bool} {v : Byte} {i : Fin 8} {p : Periph}
    (h : s.Receiving clk v i.val p) (hdrive : p.drive = true) (hbit : p.driveBit = v.getLsbD i.val) :
    (emit (.sample i) s).Receiving clk v (i.val + 1) p where
  clk      := by simp [Levels.after, State.levels, h.clk]
  dir      := by simp [Levels.after, State.levels, h.dir]
  aborted  := by simp [h.aborted]
  received := fun j hj => by
    have hline : s.line = v.getLsbD i.val := by
      rw [line_of_released h.dir (h.periph ▸ hdrive), h.periph, hbit]
    rw [emit_sample_rx, cells_read_write, hline]
    split
    · rename_i hji
      rw [hji]
    · exact h.received j (by omega)
  periph   := by rw [emit_sample_periph h.aborted, h.periph]

theorem readBit_events (clk : Bool) (idx : Option (Fin 31)) (dest : Dest) (i : Fin 8) :
    eventsOf (readBit clk idx dest i) =
      (if clk then [] else [.clk true]) ++ [.wait .rh, .clk false, .wait .rl, .sample i] := by
  cases clk <;> rfl

/-- One bit of `read_bits`, from either clock level. -/
theorem emitAll_readBit {s : State} {clk : Bool} {v : Byte} {i : Fin 8} {p : Periph} (h : s.Receiving clk v i.val p)
    (hp : p.Sending) (hdrive : p.fall.drive = true) (hbit : p.fall.driveBit = v.getLsbD i.val) (idx : Option (Fin 31))
    (dest : Dest) : (emitAll (eventsOf (readBit clk idx dest i)) s).Receiving false v (i.val + 1) p.fall := by
  have hrest : ∀ {u : State}, u.Receiving true v i.val p →
      (emitAll [.wait .rh, .clk false, .wait .rl, .sample i] u).Receiving false v (i.val + 1) p.fall := fun hu =>
    emit_sample_receiving (emit_wait_receiving (emit_fall_receiving (emit_wait_receiving hu .rh)) .rl) hdrive hbit
  rw [readBit_events, emitAll_append]
  cases clk
  · exact hrest (emit_rise_receiving h hp)
  · exact hrest h

/-- `read_bits`, from either clock level: eight bits of the byte the peripheral has at its pointer. -/
theorem emitAll_readBits {s : State} (hp : s.periph.Sending) (hb : s.periph.nbits = 0) (hd : s.dir = .in)
    (ha : s.aborted = false) (idx : Option (Fin 31)) (dest : Dest) :
    (emitAll (eventsOf (readBits s.clk idx dest)) s).Receiving false s.periph.outByte 8 (s.periph.presented 8) := by
  have hstart : s.Receiving (s.clk && decide (0 = 0)) s.periph.outByte 0 (s.periph.presented 0) :=
    ⟨by simp, hd, ha, nofun, rfl⟩
  have hend := emitAll_bits
    (fun n t => t.Receiving (s.clk && decide (n = 0)) s.periph.outByte n (s.periph.presented n))
    (f := fun i => readBit (s.clk && i == 0) idx dest i) (fun i t h => ?_) hstart
  · simpa [readBits] using hend
  · have hfall := presented_fall hp hb i.isLt
    have hzero : ∀ i : Fin 8, decide (i.val = 0) = (i == 0) := by decide
    have hpres : ∀ n, (s.periph.presented (n + 1)).drive = true ∧
        (s.periph.presented (n + 1)).driveBit = s.periph.outByte.getLsbD n := fun n => ⟨rfl, rfl⟩
    simp only [hzero] at h
    have hbit := emitAll_readBit h (presented_sending hp hb i.isLt) (by rw [hfall]; exact (hpres i.val).1)
      (by rw [hfall]; exact (hpres i.val).2) idx dest
    rw [hfall] at hbit
    simpa using hbit

/-- A byte all of whose bits are in `rx` is assembled (R104). -/
theorem assemble_of_bits {rx : Cells Bool} {v : Byte} (h : ∀ j, j < 8 → Cells.read rx j = some (v.getLsbD j)) :
    assemble rx = some v := by
  simp only [assemble, h 0 (by decide), h 1 (by decide), h 2 (by decide), h 3 (by decide), h 4 (by decide),
    h 5 (by decide), h 6 (by decide), h 7 (by decide)]
  congr 1
  clear h
  revert v
  decide

/-! ### Which byte is sent -/

/-- The chip's reserved bits aside, a read gives the register (R45, R75). -/
theorem readByte_chip {p : Periph} (h : p.kind = .chip) (a : Nat) :
    p.readByte a &&& ~~~(reservedMask a) = p.regByte a &&& ~~~(reservedMask a) := by
  simp only [Periph.readByte, h]
  generalize reservedMask a = m, p.regByte a = r, Config.freeByte .reserved p.txn a = f
  ext i hi
  simp only [BitVec.getElem_and, BitVec.getElem_or, BitVec.getElem_not]
  cases m[i] <;> simp

end Sys2Proof.Machine

namespace Sys2Proof.Proofs

open Sys2Proof Sys2Proof.Machine

/-- Settles O43: bit by bit, what the peripheral presents at each falling edge is what the engine samples after it. -/
theorem readByteReachesTheEngine : Obligations.ReadByteReachesTheEngine := by
  refine ⟨fun s idx dest hk hm hb hptr hd ha => ?_, fun p => ⟨fun hk => ?_, fun hk => ⟨readByte_chip hk, fun hsrc => ?_,
    fun hburst hrc v hv => ?_⟩⟩⟩
  · have hend := emitAll_readBits ⟨hk, hm, hptr⟩ hb hd ha idx dest
    refine ⟨assemble_of_bits hend.received, hend.periph.trans ?_⟩
    simp [Periph.presented, hm]
  · simp [Periph.outByte, Periph.readByte, hk]
  · rcases hsrc with h | h <;> simp [Periph.outByte, hk, h]
  · simp [Periph.outByte, hk, hburst, hrc, hv]

end Sys2Proof.Proofs


/-! PROOFS. The registers and how bytes reach them (20_memory.md R65, R68, R69, R71 to R73; 60_exceptions.md R213 to R216, R222): the
write and burst laws of the peripheral, `write_bits` against a peripheral that is not sending, and the fixed bits of a command. -/

namespace Sys2Proof.Machine

open Sys2Proof

/-! ### What a register holds after a write -/

/-- Of the registers put, each holds its new value; the others hold what they held. -/
theorem regByte_putAll (p : Periph) (as : List Nat) (f : Nat → Byte) (b : Nat) :
    (p.putAll as f).regByte b = if b ∈ as then f b else p.regByte b := by
  induction as generalizing p with
  | nil => rfl
  | cons a rest ih =>
    rw [Periph.putAll, ih, regByte_put]
    by_cases hb : b = a
    · subst hb
      simp
    · simp [hb]

/-- A byte written to the chip: CONTROL takes its byte always, another register only while WP is 0 (R71, R72). -/
theorem regByte_writeReg_chip {p : Periph} (h : p.kind = .chip) (a b : Nat) (v : Byte) :
    (p.writeReg a v).regByte b =
      if b = a then (if a = controlCell then p.controlByte v else if p.wp then p.regByte a else v) else p.regByte b := by
  simp only [Periph.writeReg, h]
  split <;> exact regByte_put p a b _

/-- WP takes the written bit, whatever it was (R72). -/
theorem controlByte_bit7 (p : Periph) (v : Byte) : (p.controlByte v).getLsbD 7 = v.getLsbD 7 := by
  unfold Periph.controlByte
  split <;> simp

/-- While WP is 0 the control register takes the whole byte. -/
theorem controlByte_unprotected {p : Periph} (h : p.wp = false) (v : Byte) : p.controlByte v = v := by
  simp [Periph.controlByte, h]

/-- What the commit of a clock burst leaves in a register of the record: its staged byte, or, while WP is 1, what it held, but that CONTROL
is then a free value (R71, G15, U9). -/
def Periph.committedByte (p : Periph) (a : Nat) : Byte :=
  if p.wp then (if a = controlCell then Config.freeByte .burstControl p.txn a else p.regByte a)
  else (Cells.read p.staged a).getD (p.regByte a)

theorem committedByte_of_staged {p : Periph} (h : p.wp = false) {a : Nat} {v : Byte} (hv : Cells.read p.staged a = some v) :
    p.committedByte a = v := by
  simp [Periph.committedByte, h, hv]

theorem committedByte_protected {p : Periph} (h : p.wp = true) (a : Nat) :
    p.committedByte a =
      if a = controlCell then Config.freeByte .burstControl p.txn controlCell else p.regByte a := by
  rw [Periph.committedByte, if_pos h]
  split
  · rename_i ha
    rw [ha]
  · rfl

theorem commitStaged_eq (p : Periph) :
    p.commitStaged = { p.putAll (List.range Config.clockBurstLen) p.committedByte with staged := [] } := rfl

/-- The commit of a clock burst writes the eight registers of the record and no other (R144, G15). -/
theorem regByte_commitStaged (p : Periph) (a : Nat) :
    p.commitStaged.regByte a = if a < 8 then p.committedByte a else p.regByte a := by
  have h := regByte_putAll p (List.range Config.clockBurstLen) p.committedByte a
  simp only [List.mem_range] at h
  exact h

/-! ### What an edge leaves of the peripheral -/

theorem advancePtr_eq (p : Periph) : p.advancePtr = { p with ptr := if p.burst then p.ptr + 1 else p.ptr } := by
  unfold Periph.advancePtr
  split <;> rfl

/-- A change of the peripheral that leaves its driver and its frozen record and enters no mode but IGNORE. -/
structure Periph.Keeps (p q : Periph) : Prop where
  drive    : q.drive = p.drive
  snapshot : q.snapshot = p.snapshot
  mode     : q.mode = p.mode ∨ q.mode = .ignore

theorem keeps_refl (p : Periph) : p.Keeps p := ⟨rfl, rfl, .inl rfl⟩

theorem keeps_trans {p q r : Periph} (h : p.Keeps q) (h' : q.Keeps r) : p.Keeps r where
  drive    := h'.drive.trans h.drive
  snapshot := h'.snapshot.trans h.snapshot
  mode     := h'.mode.elim (fun hm => h.mode.imp hm.trans hm.trans) .inr

theorem writeReg_keeps (p : Periph) (a : Nat) (v : Byte) : p.Keeps (p.writeReg a v) := by
  obtain ⟨m, h⟩ := writeReg_frame p a v
  rw [h]
  exact ⟨rfl, rfl, .inl rfl⟩

theorem commitStaged_keeps (p : Periph) : p.Keeps p.commitStaged := by
  obtain ⟨m, h⟩ := putAll_frame p (List.range Config.clockBurstLen) p.committedByte
  rw [commitStaged_eq, h]
  exact ⟨rfl, rfl, .inl rfl⟩

theorem advancePtr_keeps (p : Periph) : p.Keeps p.advancePtr := by
  rw [advancePtr_eq]
  exact ⟨rfl, rfl, .inl rfl⟩

theorem chipByteIn_keeps (p : Periph) : p.Keeps p.chipByteIn := by
  have hstage : p.Keeps { p with staged := Cells.write p.staged p.ptr p.shift } := ⟨rfl, rfl, .inl rfl⟩
  have hover : ∀ q : Periph, q.Keeps { q with mode := .ignore } := fun _ => ⟨rfl, rfl, .inr rfl⟩
  unfold Periph.chipByteIn
  split
  · split
    · split
      · exact keeps_trans (writeReg_keeps p _ _) (advancePtr_keeps _)
      · refine keeps_trans hstage (keeps_trans ?_ (advancePtr_keeps _))
        split
        · exact commitStaged_keeps _
        · exact keeps_refl _
    · exact keeps_refl p
  · exact keeps_trans (writeReg_keeps p _ _) (hover _)

theorem responderByteIn_keeps (p : Periph) : p.Keeps p.responderByteIn := by
  refine keeps_trans ?_ (advancePtr_keeps _)
  split
  · exact ⟨rfl, rfl, .inl rfl⟩
  · exact keeps_refl p

theorem byteIn_keeps (p : Periph) : p.Keeps p.byteIn := by
  have hcount : p.Keeps { p with nbits := 0 } := ⟨rfl, rfl, .inl rfl⟩
  unfold Periph.byteIn
  split
  · exact keeps_trans hcount (chipByteIn_keeps _)
  · exact keeps_trans hcount (responderByteIn_keeps _)
  · exact keeps_refl p

/-- A rising edge takes a bit in, and the eighth of a data byte the byte. -/
theorem rise_keeps (p : Periph) (level : Bool) : p.Keeps (p.rise level) := by
  have hshift : p.Keeps (p.shiftIn level) := ⟨rfl, rfl, .inl rfl⟩
  unfold Periph.rise
  split
  · exact keeps_refl p
  · split
    · exact hshift
    · exact keeps_refl p
  · split
    · exact keeps_trans hshift (byteIn_keeps _)
    · exact hshift
  all_goals exact keeps_refl p

/-- In the data phase of a read a rising edge does nothing. -/
theorem rise_rdata {p : Periph} (h : p.mode = .rdata) (level : Bool) : p.rise level = p := by
  cases hk : p.kind <;> simp [Periph.rise, hk, h]

theorem fall_snapshot (p : Periph) : p.fall.snapshot = p.snapshot := by
  rcases fall_frame p with h | ⟨_, _, _, _, _, h, -⟩ <;> rw [h]

theorem enable_snapshot (p : Periph) : p.enable.snapshot = p.snapshot := by
  obtain ⟨m, h⟩ := putAll_frame { p with txn := p.txn + 1 } timeCells _
  unfold Periph.enable
  split
  · rw [Periph.advanceClock, h]
  · rfl
  · rfl

theorem disable_snapshot (p : Periph) : p.disable.snapshot = p.snapshot := by
  obtain ⟨m, h⟩ := putAll_frame p clockCells (fun a => Config.freeByte .cutShort p.txn a)
  unfold Periph.disable Periph.dropStaged
  split
  · split
    · rfl
    · rw [h]
  · rfl
  · rfl

/-! ### The peripheral that does not send -/

/-- A peripheral that neither drives the line nor is about to: it may take bits in. -/
structure Periph.Listening (p : Periph) : Prop where
  drive : p.drive = false
  mode  : p.mode ≠ .rdata

theorem rise_listening {p : Periph} (h : p.Listening) (level : Bool) : (p.rise level).Listening := by
  obtain ⟨hd, -, hm⟩ := rise_keeps p level
  refine ⟨hd.trans h.drive, ?_⟩
  rcases hm with hm | hm <;> rw [hm]
  · exact h.mode
  · decide

/-- A listening peripheral has nothing to do at a falling edge (R214, R223). -/
theorem fall_listening {p : Periph} (h : p.Listening) : p.fall = p := by
  have hdriver : { p with drive := false } = p := by rw [← h.drive]
  unfold Periph.fall
  split
  case h_2 hm _ => exact absurd hm h.mode
  case h_3 => exact hdriver
  all_goals rfl

/-- The peripheral after the eight bits of a byte, one at each rising edge (R64, R213). -/
def Periph.receive (p : Periph) (v : Byte) : Periph := (byteLevels v).foldl Periph.rise p

theorem byteLevels_take_succ (v : Byte) {n : Nat} (hn : n < 8) :
    (byteLevels v).take (n + 1) = (byteLevels v).take n ++ [v.getLsbD n] := by
  rw [List.take_add_one, byteLevels, List.getElem?_map, List.getElem?_range hn]
  rfl

theorem rises_listening {p : Periph} (h : p.Listening) (levels : List Bool) : (levels.foldl Periph.rise p).Listening := by
  induction levels generalizing p with
  | nil => exact h
  | cons level rest ih => exact ih (rise_listening h level)

/-! ### An event, with the latches and the peripheral -/

/-- Where only the engine drives, the line is at `dout` (R205). -/
theorem line_of_driven {s : State} (hd : s.dir = .out) (hp : s.periph.drive = false) : s.line = s.dout := by
  simp [State.line, hd, hp]

/-- A CE event reaches the peripheral (R214, R221). -/
theorem emit_ce_periph {s : State} (ha : s.aborted = false) (b : Bool) :
    (emit (.ce b) s).periph = if b then s.periph.enable else s.periph.disable := by
  simp [emit, applyEvent, State.afterAbort, ha]

/-- In a run with no abort recorded, the latches are at `lv` and the peripheral is at `p`. -/
structure State.StandsAt (s : State) (lv : Levels) (p : Periph) : Prop where
  levels  : s.levels = lv
  aborted : s.aborted = false
  periph  : s.periph = p

/-- An event other than CE and CLK moves its latch and not the peripheral. -/
theorem emit_quiet_standsAt {s : State} {lv : Levels} {p : Periph} (h : s.StandsAt lv p) {e : Event}
    (hce : ∀ b, e ≠ .ce b) (hclk : ∀ b, e ≠ .clk b) : (emit e s).StandsAt (lv.after e) p where
  levels  := by rw [emit_levels, h.levels]
  aborted := by rw [emit_aborted, h.aborted]
  periph  := by rw [emit_periph_quiet h.aborted hce hclk, h.periph]

/-- A rising edge shows the peripheral the level the engine drives. -/
theorem emit_rise_standsAt {s : State} {ce dout : Bool} {p : Periph} (h : s.StandsAt ⟨ce, false, dout, .out⟩ p)
    (hp : p.drive = false) : (emit (.clk true) s).StandsAt ⟨ce, true, dout, .out⟩ (p.rise dout) where
  levels  := by rw [emit_levels, h.levels]; rfl
  aborted := by rw [emit_aborted, h.aborted]
  periph  := by
    obtain ⟨-, hclk, hdout, hdir⟩ := Levels.mk.inj h.levels
    have hline : s.line = dout := (line_of_driven hdir (h.periph ▸ hp)).trans hdout
    rw [emit_clk_periph h.aborted, hclk, hline, h.periph]
    rfl

/-- A falling edge leaves a listening peripheral as it was. -/
theorem emit_fall_standsAt {s : State} {ce dout : Bool} {dir : Dir} {p : Periph} (h : s.StandsAt ⟨ce, true, dout, dir⟩ p)
    (hp : p.Listening) : (emit (.clk false) s).StandsAt ⟨ce, false, dout, dir⟩ p where
  levels  := by rw [emit_levels, h.levels]; rfl
  aborted := by rw [emit_aborted, h.aborted]
  periph  := by
    obtain ⟨-, hclk, -, -⟩ := Levels.mk.inj h.levels
    rw [emit_clk_periph h.aborted, hclk, h.periph]
    exact fall_listening hp

/-! ### `write_bits` -/

/-- The engine between two bits it sends: the line driven and the clock low, or, once `released`, the hand-off of R103. -/
def State.Transmitting (s : State) (released : Bool) (p : Periph) : Prop :=
  ∃ ce dout, s.StandsAt ⟨ce, released, dout, if released then .in else .out⟩ p

theorem writeBit_events (phase : Phase) (idx : Option (Fin 31)) (v : Byte) (rel : Bool) (i : Fin 8) :
    eventsOf (writeBit phase idx v rel i) =
      [.dout (v.getLsbD i.val), .wait .dsu, .clk true, .wait .dh] ++
        (if i = 7 ∧ rel then [.dir .in] else [.clk false, .wait .clr]) := by
  unfold writeBit
  split <;> rfl

/-- One bit of `write_bits`: the listening peripheral sees it at the rising edge, and nothing else. -/
theorem emitAll_writeBit {s : State} {p : Periph} (h : s.Transmitting false p) (hp : p.Listening) (phase : Phase)
    (idx : Option (Fin 31)) (v : Byte) (rel : Bool) (i : Fin 8) :
    (emitAll (eventsOf (writeBit phase idx v rel i)) s).Transmitting (decide (i = 7) && rel) (p.rise (v.getLsbD i.val)) := by
  obtain ⟨ce, dout, h⟩ := h
  have hdout := emit_quiet_standsAt (emit_quiet_standsAt h (e := .dout (v.getLsbD i.val)) nofun nofun)
    (e := .wait .dsu) nofun nofun
  have hhold := emit_quiet_standsAt (emit_rise_standsAt hdout hp.drive) (e := .wait .dh) nofun nofun
  rw [writeBit_events, emitAll_append]
  refine ⟨ce, v.getLsbD i.val, ?_⟩
  by_cases hrel : i = 7 ∧ rel = true
  · rw [if_pos hrel]
    obtain ⟨rfl, rfl⟩ := hrel
    exact emit_quiet_standsAt hhold (e := .dir .in) nofun nofun
  · have hlow : (decide (i = 7) && rel) = false := by simpa using hrel
    rw [if_neg hrel, hlow]
    exact emit_quiet_standsAt (emit_fall_standsAt hhold (rise_listening hp _)) (e := .wait .clr) nofun nofun

/-- `write_bits` to a listening peripheral (R64, R102): it receives the byte. -/
theorem emitAll_writeBits {s : State} {p : Periph} (h : s.Transmitting false p) (hp : p.Listening) (phase : Phase)
    (idx : Option (Fin 31)) (v : Byte) (rel : Bool) :
    (emitAll (eventsOf (writeBits phase idx v rel)) s).Transmitting rel (p.receive v) := by
  refine emitAll_bits (fun n t => t.Transmitting (decide (n = 8) && rel) (((byteLevels v).take n).foldl Periph.rise p))
    (fun i t ht => ?_) h
  have hlast : ∀ i : Fin 8, decide (i.val = 8) = false ∧ decide (i.val + 1 = 8) = decide (i = 7) := by decide
  obtain ⟨hbefore, hafter⟩ := hlast i
  simp only [hbefore, Bool.false_and] at ht
  rw [hafter, byteLevels_take_succ v i.isLt, List.foldl_append]
  exact emitAll_writeBit ht (rises_listening hp _) phase idx v rel i

/-- The same for the bytes of a burst, one by one (R65). -/
theorem emitAll_burst {s : State} {p : Periph} (h : s.Transmitting false p) (hp : p.Listening) (phase : Phase)
    (bytes : List (Fin 31 × Byte)) :
    (emitAll (eventsOf (bytes.flatMap (fun kv => writeBits phase (some kv.1) kv.2 false))) s).Transmitting false
      ((bytes.map Prod.snd).foldl Periph.receive p) := by
  induction bytes generalizing s p with
  | nil => exact h
  | cons kv rest ih =>
    rw [List.flatMap_cons, eventsOf_append, emitAll_append]
    exact ih (emitAll_writeBits h hp phase (some kv.1) kv.2 false) (rises_listening hp _)

theorem transmitting_of_driven {s : State} (hclk : s.clk = false) (hdir : s.dir = .out) (ha : s.aborted = false) :
    s.Transmitting false s.periph :=
  ⟨s.ce, s.dout, by rw [State.levels, hclk, hdir]; rfl, ha, rfl⟩

/-- What `write_bits` does to a listening peripheral: it receives the byte. -/
theorem periph_writeBits {s : State} (hp : s.periph.Listening) (hdir : s.dir = .out) (hclk : s.clk = false)
    (ha : s.aborted = false) (phase : Phase) (idx : Option (Fin 31)) (v : Byte) (rel : Bool) :
    (emitAll (eventsOf (writeBits phase idx v rel)) s).periph = s.periph.receive v := by
  obtain ⟨_, _, h⟩ := emitAll_writeBits (transmitting_of_driven hclk hdir ha) hp phase idx v rel
  exact h.periph

/-- What the bytes of a burst do to it. -/
theorem periph_burst {s : State} (hp : s.periph.Listening) (hdir : s.dir = .out) (hclk : s.clk = false)
    (ha : s.aborted = false) (phase : Phase) (bytes : List (Fin 31 × Byte)) :
    (emitAll (eventsOf (bytes.flatMap (fun kv => writeBits phase (some kv.1) kv.2 false))) s).periph =
      (bytes.map Prod.snd).foldl Periph.receive s.periph := by
  obtain ⟨_, _, h⟩ := emitAll_burst (transmitting_of_driven hclk hdir ha) hp phase bytes
  exact h.periph

/-! ### A byte received -/

theorem getLsbD_setBit (v : Byte) {i : Nat} (hi : i < 8) (b : Bool) (j : Nat) :
    (setBit v i b).getLsbD j = if j = i then b else v.getLsbD j := by
  by_cases hj : j < 8
  · have hone : ((1 : Byte) <<< i).getLsbD j = decide (j = i) := by
      interval_cases i <;> interval_cases j <;> rfl
    unfold setBit
    split
    · rw [BitVec.getLsbD_or, hone]
      by_cases hji : j = i <;> simp_all
    · rw [BitVec.getLsbD_and, BitVec.getLsbD_not, hone]
      by_cases hji : j = i <;> simp_all
  · have hne : j ≠ i := by omega
    rw [if_neg hne, BitVec.getLsbD_of_ge _ j (Nat.not_lt.mp hj), BitVec.getLsbD_of_ge _ j (Nat.not_lt.mp hj)]

/-- A bit short of a byte's last is shifted in (R222). -/
theorem rise_shift {p : Periph} (hk : p.kind ≠ .absent) (hm : p.mode = .cmd ∨ p.mode = .wdata) (hn : p.nbits < 7)
    (level : Bool) : p.rise level = p.shiftIn level := by
  cases hkind : p.kind
  case absent => exact absurd hkind hk
  all_goals
    have hlast : p.nbits + 1 ≠ 8 := by omega
    rcases hm with hm | hm <;> simp [Periph.rise, hkind, hm, hlast, Nat.lt_succ_of_lt hn]

/-- The last bit of a command byte is shifted in too, and the byte waits (log 1). -/
theorem rise_last_command {p : Periph} (hk : p.kind ≠ .absent) (hm : p.mode = .cmd) (hn : p.nbits = 7) (level : Bool) :
    p.rise level = p.shiftIn level := by
  cases hkind : p.kind
  case absent => exact absurd hkind hk
  all_goals simp [Periph.rise, hkind, hm, hn]

/-- With its last bit a data byte is complete (R222). -/
theorem rise_last_data {p : Periph} (hk : p.kind ≠ .absent) (hm : p.mode = .wdata) (hn : p.nbits = 7) (level : Bool) :
    p.rise level = (p.shiftIn level).byteIn := by
  cases hkind : p.kind
  case absent => exact absurd hkind hk
  all_goals simp [Periph.rise, hkind, hm, hn]

/-- Short of the last bit of a byte, the shift register holds the bits so far and the count says how many. -/
theorem rises_below_eight {p : Periph} (hk : p.kind ≠ .absent) (hm : p.mode = .cmd ∨ p.mode = .wdata) (hb : p.nbits = 0)
    (v : Byte) {n : Nat} (hn : n < 8) :
    ∃ w, ((byteLevels v).take n).foldl Periph.rise p = { p with shift := w, nbits := n } ∧
      ∀ j, j < n → w.getLsbD j = v.getLsbD j := by
  induction n with
  | zero =>
    have hstart : p = { p with shift := p.shift, nbits := 0 } := by rw [← hb]
    exact ⟨p.shift, hstart, nofun⟩
  | succ n ih =>
    have hn' : n < 8 := Nat.lt_of_succ_lt hn
    obtain ⟨w, hw, hbits⟩ := ih hn'
    refine ⟨setBit w n (v.getLsbD n), ?_, fun j hj => ?_⟩
    · rw [byteLevels_take_succ v hn', List.foldl_append, hw]
      exact rise_shift (p := { p with shift := w, nbits := n }) hk hm (Nat.lt_of_succ_lt_succ hn) _
    · rw [getLsbD_setBit w hn']
      split
      · rename_i hj'
        rw [hj']
      · exact hbits j (by omega)

/-- The eighth bit completes the byte. -/
theorem setBit_complete {v w : Byte} (h : ∀ j, j < 7 → w.getLsbD j = v.getLsbD j) : setBit w 7 (v.getLsbD 7) = v := by
  refine BitVec.eq_of_getLsbD_eq fun j hj => ?_
  rw [getLsbD_setBit w (by decide)]
  split
  · rename_i hj'
    rw [hj']
  · exact h j (by omega)

/-- Before its last bit, a byte on its way in is in the shift register but for that bit. -/
theorem receive_eq_rise {p : Periph} (hk : p.kind ≠ .absent) (hm : p.mode = .cmd ∨ p.mode = .wdata) (hb : p.nbits = 0)
    (v : Byte) : ∃ w, p.receive v = Periph.rise { p with shift := w, nbits := 7 } (v.getLsbD 7) ∧
      setBit w 7 (v.getLsbD 7) = v := by
  obtain ⟨w, hw, hbits⟩ := rises_below_eight hk hm hb v (n := 7) (by decide)
  have hlevels : byteLevels v = (byteLevels v).take 7 ++ [v.getLsbD 7] := rfl
  refine ⟨w, ?_, setBit_complete hbits⟩
  rw [Periph.receive, hlevels, List.foldl_append, hw]
  rfl

/-- A command byte received waits in the shift register (R215, log 1). -/
theorem receive_command {p : Periph} (hk : p.kind ≠ .absent) (hm : p.mode = .cmd) (hb : p.nbits = 0) (v : Byte) :
    p.receive v = { p with shift := v, nbits := 8 } := by
  obtain ⟨w, hw, hv⟩ := receive_eq_rise hk (.inl hm) hb v
  rw [hw, rise_last_command (p := { p with shift := w, nbits := 7 }) hk hm rfl, Periph.shiftIn, hv]

/-- The peripheral with a whole data byte in its shift register and its bit count started again. -/
def Periph.loaded (p : Periph) (v : Byte) : Periph := { p with shift := v, nbits := 0 }

@[simp] theorem loaded_burst (p : Periph) (v : Byte) : (p.loaded v).burst = p.burst := rfl
@[simp] theorem loaded_ptr (p : Periph) (v : Byte) : (p.loaded v).ptr = p.ptr := rfl
@[simp] theorem loaded_regByte (p : Periph) (v : Byte) (a : Nat) : (p.loaded v).regByte a = p.regByte a := rfl
@[simp] theorem loaded_wp (p : Periph) (v : Byte) : (p.loaded v).wp = p.wp := rfl

theorem byteIn_chip {p : Periph} (h : p.kind = .chip) : p.byteIn = Periph.chipByteIn { p with nbits := 0 } := by
  cases p
  cases h
  rfl

theorem byteIn_responder {p : Periph} (h : p.kind = .responder) :
    p.byteIn = Periph.responderByteIn { p with nbits := 0 } := by
  cases p
  cases h
  rfl

/-- A data byte received takes effect at once (R216, R222). -/
theorem receive_data {p : Periph} (hk : p.kind ≠ .absent) (hm : p.mode = .wdata) (hb : p.nbits = 0) (v : Byte) :
    p.receive v = Periph.byteIn { p with shift := v, nbits := 8 } := by
  obtain ⟨w, hw, hv⟩ := receive_eq_rise hk (.inr hm) hb v
  rw [hw, rise_last_data (p := { p with shift := w, nbits := 7 }) hk hm rfl, Periph.shiftIn, hv]

theorem receive_chip {p : Periph} (hk : p.kind = .chip) (hm : p.mode = .wdata) (hb : p.nbits = 0) (v : Byte) :
    p.receive v = (p.loaded v).chipByteIn := by
  rw [receive_data (by rw [hk]; decide) hm hb]
  exact byteIn_chip (p := { p with shift := v, nbits := 8 }) hk

theorem receive_responder {p : Periph} (hk : p.kind = .responder) (hm : p.mode = .wdata) (hb : p.nbits = 0) (v : Byte) :
    p.receive v = (p.loaded v).responderByteIn := by
  rw [receive_data (by rw [hk]; decide) hm hb]
  exact byteIn_responder (p := { p with shift := v, nbits := 8 }) hk

/-! ### What a data byte does -/

/-- A single byte at the responder goes to the addressed register (R222). -/
theorem responderByteIn_single {p : Periph} (h : p.burst = false) :
    p.responderByteIn = p.put (cellOf p.rc p.ptr) p.shift := by
  simp [Periph.responderByteIn, Periph.limit, Periph.advancePtr, h]

/-- A single byte at the chip is written as WP says, and the transfer is over (R216, log 16). -/
theorem chipByteIn_single {p : Periph} (h : p.burst = false) :
    p.chipByteIn = { p.writeReg (cellOf p.rc p.ptr) p.shift with mode := .ignore } := by
  simp [Periph.chipByteIn, h]

/-- A byte of a RAM burst at the chip is written as WP says, and the pointer moves on (R144, R216). -/
theorem chipByteIn_ramBurst {p : Periph} (h : p.burst = true) (hrc : p.rc = true) (hptr : p.ptr < 31) :
    p.chipByteIn = { p.writeReg (32 + p.ptr) p.shift with ptr := p.ptr + 1 } := by
  have hlimit : p.ptr < p.limit := by simpa [Periph.limit, h, hrc, Config.ramBurstLen] using hptr
  obtain ⟨m, hw⟩ := writeReg_frame p (32 + p.ptr) p.shift
  rw [Periph.chipByteIn, if_pos h, if_pos hlimit, if_pos hrc, cellOf, if_pos hrc, advancePtr_eq, hw]
  simp [h]

/-- A byte of a clock burst at the chip is staged, and the eighth commits the record (G15, log 14). -/
theorem chipByteIn_clockBurst {p : Periph} (h : p.burst = true) (hrc : p.rc = false) (hptr : p.ptr < 8) :
    p.chipByteIn =
      (if p.ptr + 1 = 8 then Periph.commitStaged { p with staged := Cells.write p.staged p.ptr p.shift }
        else { p with staged := Cells.write p.staged p.ptr p.shift }).advancePtr := by
  have hlimit : p.ptr < p.limit := by simpa [Periph.limit, h, hrc, Config.clockBurstLen] using hptr
  rw [Periph.chipByteIn, if_pos h, if_pos hlimit, hrc]
  rfl

/-! ### The record of a clock burst -/

/-- The chip in the data phase of a clock-burst write, between two bytes. -/
structure Periph.TakesRecord (p : Periph) : Prop where
  kind  : p.kind = .chip
  mode  : p.mode = .wdata
  burst : p.burst = true
  rc    : p.rc = false
  nbits : p.nbits = 0

/-- A byte of a clock burst received, at the pointer among the staged ones. -/
def Periph.stage (p : Periph) (v : Byte) : Periph := { p.loaded v with staged := Cells.write p.staged p.ptr v }

/-- A byte before the eighth is staged (G15). -/
theorem receive_before_eighth {p : Periph} (h : p.TakesRecord) (hptr : p.ptr + 1 < 8) (v : Byte) :
    p.receive v = { p.stage v with ptr := p.ptr + 1 } := by
  obtain ⟨hk, hm, hb, hrc, hn⟩ := h
  rw [receive_chip hk hm hn, chipByteIn_clockBurst (p := p.loaded v) hb hrc (Nat.lt_of_succ_lt hptr), loaded_ptr,
    if_neg (Nat.ne_of_lt hptr), advancePtr_eq, loaded_burst, if_pos hb]
  rfl

/-- The eighth byte commits the record (G15). -/
theorem receive_eighth {p : Periph} (h : p.TakesRecord) (hptr : p.ptr + 1 = 8) (v : Byte) :
    p.receive v = (p.stage v).commitStaged.advancePtr := by
  obtain ⟨hk, hm, hb, hrc, hn⟩ := h
  rw [receive_chip hk hm hn, chipByteIn_clockBurst (p := p.loaded v) hb hrc (Nat.lt_of_succ_le hptr.le), loaded_ptr,
    if_pos hptr]
  rfl

/-- Bytes held index by index, and one more at the next index. -/
theorem read_write_next {m : Memory} {vs : List Byte} (h : ∀ k, Cells.read m k = vs[k]?) (v : Byte) (k : Nat) :
    Cells.read (Cells.write m vs.length v) k = (vs ++ [v])[k]? := by
  rw [cells_read_write, h]
  rcases Nat.lt_trichotomy k vs.length with hk | rfl | hk
  · rw [if_neg (Nat.ne_of_lt hk), List.getElem?_append_left hk]
  · simp
  · rw [if_neg (Nat.ne_of_gt hk), List.getElem?_eq_none hk.le, List.getElem?_eq_none (by simpa using hk)]

/-- After fewer than eight bytes each is staged at its index, and nothing else has happened (R65, G15). -/
theorem receives_below_eight {p : Periph} (h : p.TakesRecord) (hptr : p.ptr = 0) (hstaged : p.staged = []) (vs : List Byte)
    (hlen : vs.length < 8) :
    ∃ w m, vs.foldl Periph.receive p = { p with shift := w, staged := m, ptr := vs.length } ∧
      ∀ k, Cells.read m k = vs[k]? := by
  induction vs using List.reverseRecOn with
  | nil => exact ⟨p.shift, [], by rw [← hstaged, List.length_nil, ← hptr]; rfl, fun k => rfl⟩
  | append_singleton vs v ih =>
    rw [List.length_append, List.length_singleton] at hlen ⊢
    obtain ⟨w, m, hvs, hread⟩ := ih (Nat.lt_of_succ_lt hlen)
    refine ⟨v, Cells.write m vs.length v, ?_, read_write_next hread v⟩
    have hnext : Periph.TakesRecord { p with shift := w, staged := m, ptr := vs.length } :=
      ⟨h.kind, h.mode, h.burst, h.rc, h.nbits⟩
    rw [List.foldl_append, hvs]
    refine (receive_before_eighth hnext hlen v).trans ?_
    rw [Periph.stage, Periph.loaded, ← h.nbits]

/-- After eight bytes nothing stays staged, and the eight registers are those of the commit (G15). -/
theorem receives_record {p : Periph} (h : p.TakesRecord) (hptr : p.ptr = 0) (hstaged : p.staged = []) {vs : List Byte}
    (hlen : vs.length = 8) :
    (vs.foldl Periph.receive p).staged = [] ∧
    ∃ m, (∀ k, Cells.read m k = vs[k]?) ∧ ∀ a, (vs.foldl Periph.receive p).regByte a =
      if a < 8 then Periph.committedByte { p with staged := m } a else p.regByte a := by
  rcases List.eq_nil_or_concat vs with rfl | ⟨us, u, rfl⟩
  · cases hlen
  rw [List.concat_eq_append] at hlen ⊢
  rw [List.length_append, List.length_singleton] at hlen
  obtain ⟨w, m, hus, hread⟩ := receives_below_eight h hptr hstaged us (Nat.lt_of_succ_le hlen.le)
  have hlast : Periph.TakesRecord { p with shift := w, staged := m, ptr := us.length } :=
    ⟨h.kind, h.mode, h.burst, h.rc, h.nbits⟩
  rw [List.foldl_append, hus, List.foldl_cons, List.foldl_nil, receive_eighth hlast hlen, advancePtr_eq]
  exact ⟨rfl, Cells.write m us.length u, read_write_next hread u, fun a => regByte_commitStaged _ a⟩

/-! ### What the requests and commands fix -/

/-- Bit 0 of the operand reaches neither command byte (R84, R85) nor the check of the operand (R87). -/
theorem operand_bitZero (m : RegMap) (addr : Byte) :
    readCommand (addr ^^^ 0x01) = readCommand addr ∧ writeCommand (addr ^^^ 0x01) = writeCommand addr ∧
      validAddr m (addr ^^^ 0x01) = validAddr m addr := by
  have hset : (addr ^^^ 0x01) ||| 0x01 = addr ||| 0x01 := by
    revert addr
    decide
  have hclear : (addr ^^^ 0x01) &&& 0xFE = addr &&& 0xFE := by
    revert addr
    decide
  exact ⟨hset, hclear, by rw [validAddr, hclear, validAddr]⟩

/-- The bytes a burst write sends are its payload (R65). -/
theorem readRange_payloadCells {n : Nat} (hn : n ≤ 31) {payload : List Byte} (h : payload.length = n) :
    (readRange (payloadCells n payload) (burstIndices n)).map Prod.snd = payload := by
  apply List.ext_getElem
  · simp [readRange, burstIndices, h, hn]
  · intro k hk hk'
    simp [readRange, burstIndices, read_payloadCells hn h, hk']

/-- Cells made from a list of indexes and a function read as the function at those indexes. -/
theorem read_map_pair (ks : List Nat) (f : Nat → Byte) (k : Nat) :
    Cells.read (ks.map (fun a => (a, f a))) k = if k ∈ ks then some (f k) else none := by
  induction ks with
  | nil => rfl
  | cons a rest ih =>
    rw [List.map_cons, Cells.read, ih]
    by_cases hk : k = a
    · subst hk
      simp
    · simp [hk]

/-- A burst command points at the first register of its subspace; the chip's clock-burst read alone writes the frozen record (R69, R86). -/
theorem takeCommand_burst {s : State} (hk : s.periph.kind ≠ .absent) (rc isRead : Bool) :
    takeCommand rc 31 isRead s = .next
      { s with periph := { s.periph with
          nbits := 0, rc := rc, burst := true, ptr := 0, mode := if isRead then .rdata else .wdata,
          snapshot := if s.periph.kind = .chip ∧ isRead = true ∧ rc = false then s.periph.clockSnapshot
            else s.periph.snapshot } } := by
  rcases takeCommand_cases rc 31 isRead s with ⟨habsent, -⟩ | ⟨-, hc⟩
  · exact absurd habsent hk
  · rw [hc]
    simp [Periph.takeCommand, and_assoc]

end Sys2Proof.Machine

namespace Sys2Proof.Proofs

open Sys2Proof Sys2Proof.Machine

/-- Settles O12: bit 0 is forced in the command byte and masked in the check of the operand. -/
theorem bitZeroOfTheAddressIsForced : Obligations.BitZeroOfTheAddressIsForced := by
  intro addr wdata s
  obtain ⟨hread, hwrite, hvalid⟩ := operand_bitZero s.params.regMap addr
  constructor
  · simp only [exec, execRead, State.acceptAt, hread, hvalid]
  · simp only [exec, execWrite, State.acceptAt, hwrite, hvalid]

/-- Settles O14: the command bytes are those of the default map, and the buffer of a burst write reads back as its payload. -/
theorem burstsSendTheirFixedCommand : Obligations.BurstsSendTheirFixedCommand := by
  intro addr w s hr hram hmap
  have hexec : ∀ op cmd buf, onRequest s (s.acceptRamBurst op cmd w buf) = .next (s.accept op cmd w buf) :=
    fun op cmd buf => by rw [onRequest_ready hr, acceptRamBurst_present hram]
  refine ⟨⟨_, onRequest_ready hr _, ?_⟩, fun payload hlen => ⟨_, _, onRequest_ready hr _, ?_,
    readRange_payloadCells (by decide) hlen, readRange_indices _ _⟩, ⟨_, hexec _ _ _, ?_⟩,
    fun payload hlen => ⟨_, _, hexec _ _ _, ?_, readRange_payloadCells (by decide) hlen, readRange_indices _ _⟩⟩
  all_goals rw [hmap]; rfl

/-- Settles O19: each is taken as a burst, and the record it freezes is read back register by register. -/
theorem burstCommandsStartAtTheFirstRegister : Obligations.BurstCommandsStartAtTheFirstRegister := by
  intro s hk
  have hother : ∀ rc isRead, ¬ (s.periph.kind = .chip ∧ isRead = true ∧ rc = false) →
      takeCommand rc 31 isRead s = .next
        { s with periph := { s.periph with
            nbits := 0, rc := rc, burst := true, ptr := 0, mode := if isRead then .rdata else .wdata } } :=
    fun rc isRead h => by rw [takeCommand_burst hk, if_neg h]
  refine ⟨hother false false (by simp), hother true false (by simp), hother true true (by simp), _,
    takeCommand_burst hk false true, fun hchip k hlt => ?_, fun hresp => ?_⟩
  · rw [if_pos ⟨hchip, rfl, rfl⟩, Periph.clockSnapshot, read_map_pair]
    exact if_pos (List.mem_range.mpr hlt)
  · rw [if_neg (by simp [hresp])]

/-- Settles O41: the byte is on the line, bit by bit, at the rising edges, and a waiting peripheral shifts each bit in. -/
theorem commandByteReachesThePeripheral : Obligations.CommandByteReachesThePeripheral := by
  intro s phase idx v rel hk hm hb hdrive hdir hclk ha
  have hlisten : s.periph.Listening := ⟨hdrive, by rw [hm]; decide⟩
  rw [periph_writeBits hlisten hdir hclk ha, receive_command hk hm hb]

/-- Settles O44: each clause is a case of the chip's write law. -/
theorem writeProtectAtTheChip : Obligations.WriteProtectAtTheChip := by
  intro p a b v hk
  refine ⟨fun hwp ha => ?_, fun hwp => ?_, ?_, fun hb => ?_⟩
  · rw [regByte_writeReg_chip hk, if_neg ha, hwp]
    split
    · rename_i hba
      rw [hba]
      rfl
    · rfl
  · rw [regByte_writeReg_chip hk, controlByte_unprotected hwp, hwp]
    simp
  · rw [Periph.wp, regByte_writeReg_chip hk, if_pos rfl, if_pos rfl, controlByte_bit7]
  · rw [regByte_writeReg_chip hk, if_neg hb]

/-- Settles O42: the byte received goes to the addressed register, at the chip as its write law says. -/
theorem writtenByteReachesTheRegister : Obligations.WrittenByteReachesTheRegister := by
  intro s phase idx v hm hburst hb hdrive hdir hclk ha cell q
  have hlisten : s.periph.Listening := ⟨hdrive, by rw [hm]; decide⟩
  have hq : q = s.periph.receive v := periph_writeBits hlisten hdir hclk ha phase idx v false
  refine ⟨fun hk a => ?_, fun hk => ?_⟩
  · rw [hq, receive_responder hk hm hb, responderByteIn_single (p := s.periph.loaded v) hburst]
    exact regByte_put (s.periph.loaded v) cell a v
  · have hwritten : q = { (s.periph.loaded v).writeReg cell v with mode := .ignore } := by
      rw [hq, receive_chip hk hm hb]
      exact chipByteIn_single hburst
    obtain ⟨hprotected, hopen, hcontrol, -⟩ := writeProtectAtTheChip (s.periph.loaded v) cell cell v hk
    obtain ⟨m, hframe⟩ := writeReg_frame (s.periph.loaded v) cell v
    rw [hwritten]
    refine ⟨rfl, by rw [hframe]; rfl, by rw [hframe]; exact hdrive, fun a hne => ?_,
      fun hwp => (hopen hwp).trans (if_pos rfl), hprotected, fun hc => ?_⟩
    · exact (regByte_writeReg_chip (p := s.periph.loaded v) hk cell a v).trans (if_neg hne)
    · rw [hc]
      exact hcontrol

/-- Settles O45: the byte received is written as the chip's write law says, at no register that is CONTROL. -/
theorem chipWritesEachRamBurstByte : Obligations.ChipWritesEachRamBurstByte := by
  intro s phase idx v hk hm hburst hrc hptr hb hdrive hdir hclk ha t
  have hlisten : s.periph.Listening := ⟨hdrive, by rw [hm]; decide⟩
  have ht : t.periph = { (s.periph.loaded v).writeReg (32 + s.periph.ptr) v with ptr := s.periph.ptr + 1 } := by
    rw [periph_writeBits hlisten hdir hclk ha, receive_chip hk hm hb]
    exact chipByteIn_ramBurst hburst hrc hptr
  obtain ⟨m, hframe⟩ := writeReg_frame (s.periph.loaded v) (32 + s.periph.ptr) v
  refine ⟨by rw [ht], by rw [ht, hframe]; rfl, by rw [ht, hframe]; exact hm, fun a => ?_⟩
  have hne : 32 + s.periph.ptr ≠ controlCell := by
    unfold controlCell
    omega
  rw [ht]
  refine (regByte_writeReg_chip (p := s.periph.loaded v) hk _ a v).trans ?_
  rw [if_neg hne, loaded_wp, loaded_regByte, loaded_regByte]
  cases s.periph.wp <;> by_cases ha : a = 32 + s.periph.ptr <;> simp [ha]

/-- Settles O47: the bytes of the burst are received one by one, each staged until the eighth commits them. -/
theorem clockBurstWriteCommitsTheRecord : Obligations.ClockBurstWriteCommitsTheRecord := by
  intro s bytes hk hm hburst hrc hptr hstaged hb hdrive hdir hclk ha t
  have hrecord : s.periph.TakesRecord := ⟨hk, hm, hburst, hrc, hb⟩
  have ht : t.periph = (bytes.map Prod.snd).foldl Periph.receive s.periph :=
    periph_burst ⟨hdrive, by rw [hm]; decide⟩ hdir hclk ha .writing bytes
  rw [ht]
  refine ⟨fun hlen => ?_, fun hlen => ?_⟩
  · obtain ⟨w, m, hall, hread⟩ := receives_below_eight hrecord hptr hstaged (bytes.map Prod.snd) (by simpa using hlen)
    rw [hall]
    refine ⟨fun a => rfl, fun hne hempty => hne ?_⟩
    obtain rfl : m = [] := hempty
    simpa [Cells.read] using hread 0
  · obtain ⟨hdone, m, hread, hreg⟩ := receives_record hrecord hptr hstaged (vs := bytes.map Prod.snd) (by simpa using hlen)
    refine ⟨hdone, fun a h8 => (hreg a).trans (if_neg (Nat.not_lt.mpr h8)), fun hwp a h8 => ?_,
      fun hwp a h8 => ((hreg a).trans (if_pos h8)).trans
        (committedByte_protected (p := { s.periph with staged := m }) hwp a)⟩
    have hbyte : (bytes.map Prod.snd)[a]? = some ((bytes.map Prod.snd)[a]'(by simpa [hlen] using h8)) :=
      List.getElem?_eq_getElem _
    rw [hreg, if_pos h8, hbyte,
      committedByte_of_staged (p := { s.periph with staged := m }) hwp ((hread a).trans hbyte)]

/-- Settles O48: a read's data phase sees a falling edge at most, which keeps the registers; the frozen record is written by no edge and by
no move of CE. -/
theorem readsHaveNoSideEffect : Obligations.ReadsHaveNoSideEffect := by
  intro e s ha
  cases e with
  | ce b =>
    refine ⟨fun _ hce => absurd rfl (hce b), ?_⟩
    rw [emit_ce_periph ha]
    cases b
    · exact disable_snapshot _
    · exact enable_snapshot _
  | clk b =>
    rw [emit_clk_periph ha]
    split
    · exact ⟨fun hm _ => by rw [rise_rdata hm], (rise_keeps _ _).snapshot⟩
    · split
      · exact ⟨fun _ _ => fall_store _, fall_snapshot _⟩
      · exact ⟨fun _ _ => rfl, rfl⟩
  | _ =>
    refine ⟨fun _ _ => ?_, ?_⟩ <;> rw [emit_periph_quiet ha] <;> nofun

end Sys2Proof.Proofs


/-! PROOFS. Where a step could stop (60_exceptions.md R218) and why a conforming machine never does (30_encoding.md R88; 40_primitives.md R107);
the command byte READ and WRITE send (R84, R85), the reserved codes (R91, R202), and words of the spec. -/

namespace Sys2Proof.Machine

open Sys2Proof

/-! ### Every move but one answers -/

/-- Every instruction has a meaning in every state: a command is taken or ignored, a request answered or left waiting. -/
theorem exec_answers (i : Instr) (s : State) : ∃ t, exec i s = .next t := by
  rcases takenAs_or_answeredBy i with ⟨rc, index, isRead, -, hi⟩ | ⟨a, -, hi⟩ <;> rw [hi]
  · rcases takeCommand_cases rc index isRead s with ⟨-, h⟩ | ⟨-, h⟩ <;> exact ⟨_, h⟩
  · rcases onRequest_cases s (a.give s) with ⟨-, h⟩ | ⟨-, h⟩ <;> exact ⟨_, h⟩

theorem mapNext_answers {o : Outcome} (h : ∃ t, o = .next t) (f : State → State) : ∃ t, mapNext o f = .next t := by
  obtain ⟨t, rfl⟩ := h
  exact ⟨f t, rfl⟩

/-- A step stops nowhere but before a command byte that names nothing. -/
theorem step_answers {s : State} (h : s.turn = .badCommand → ∃ t, s.badCommand = .next t) : ∃ t, step s = .next t := by
  unfold step
  cases hturn : s.turn with
  | command i => exact mapNext_answers (exec_answers i s) _
  | request i => exact mapNext_answers (exec_answers i s) _
  | badCommand => exact mapNext_answers (h hturn) _
  | reset => exact ⟨_, rfl⟩
  | sequencer => exact ⟨_, rfl⟩
  | init => exact ⟨_, rfl⟩
  | waiting => exact ⟨_, rfl⟩

/-- Such a byte stops the chip alone, and it only in a run with no abort recorded (R218, R222; log 18). -/
theorem badCommand_answers {s : State} (h : s.periph.kind = .chip → s.aborted = true) : ∃ t, s.badCommand = .next t := by
  unfold State.badCommand
  cases hk : s.periph.kind with
  | chip => exact ⟨_, if_pos (h hk)⟩
  | responder => exact ⟨_, rfl⟩
  | absent => exact ⟨_, rfl⟩

/-! ### The command byte that waits in a conforming machine -/

theorem commandReady_iff (p : Periph) : p.commandReady = true ↔ p.mode = .cmd ∧ p.nbits = 8 ∧ p.kind ≠ .absent := by
  simp [Periph.commandReady, and_assoc]

/-- A peripheral at rest is OFF, so no byte waits in it (R221). -/
theorem commandReady_of_atRest {p : Periph} (h : p.atRest) : p.commandReady = false := by
  rw [← Bool.not_eq_true, commandReady_iff]
  rintro ⟨hmode, -, hkind⟩
  cases hmode.symm.trans (h.2 hkind)

/-- In a transaction the byte that waits is the operation's: before event 48 it is not whole, and after it the peripheral sends or receives. -/
theorem shift_of_agreesWith {p : Periph} {cmd : Byte} {isRead : Bool} {dir : Dir} {pos len : Nat}
    (h : p.agreesWith cmd isRead dir pos len) (hc : p.commandReady = true) : p.shift = cmd := by
  obtain ⟨hmode, hbits, hkind⟩ := (commandReady_iff p).mp hc
  have hphase := h.2 hkind
  split at hphase
  · rw [commandReady_of_atRest hphase] at hc
    cases hc
  · split at hphase
    · obtain ⟨-, -, hcount, -⟩ := hphase
      omega
    · rcases hphase with ⟨-, -, -, -, hshift⟩ | ⟨-, hm, -⟩ | ⟨-, hm, -⟩
      · exact hshift
      · simp [hmode] at hm
      · simp [hmode] at hm

/-- With no abort recorded, the byte that waits in a conforming machine is a command of the build's map (R88). -/
theorem shift_decodes_of_conforming {s : State} (h : s.Conforming) (ha : s.aborted = false)
    (hc : s.periph.commandReady = true) : ∃ i, decodeCommand s.params.regMap s.periph.shift = .ok i := by
  obtain ⟨-, -, -, hbusy, hlines⟩ := h
  obtain ⟨-, hrest, hagree⟩ := hlines ha
  by_cases hp : s.phase = .idle
  · rw [commandReady_of_atRest (hrest hp)] at hc
    cases hc
  · obtain ⟨op, cmd, -, hcmd, -, hdecodes, -⟩ := hbusy hp
    have hhand : s.cmdInHand = cmd := by
      rw [State.cmdInHand, hcmd]
      rfl
    rw [shift_of_agreesWith (hagree hp) hc, hhand]
    exact hdecodes

/-- Where the turn is that of a bad command, a whole byte waits that the peripheral's map does not decode. -/
theorem decode_of_badCommand {s : State} (h : s.turn = .badCommand) :
    s.periph.commandReady = true ∧ ∃ e, decodeCommand s.commandMap s.periph.shift = .error e := by
  have hcases := turn_cases s
  simp only [h, reduceCtorEq, false_and, exists_false, false_or, or_false, true_and] at hcases
  obtain ⟨e, -, -, hc, he⟩ := hcases
  exact ⟨hc, e, he⟩

/-- So a byte that names nothing stands before the chip of a conforming machine only after an abort (R207, log 17). -/
theorem aborted_of_badCommand {s : State} (h : s.Conforming) (hturn : s.turn = .badCommand) (hk : s.periph.kind = .chip) :
    s.aborted = true := by
  obtain ⟨hc, e, he⟩ := decode_of_badCommand hturn
  have hmap : s.commandMap = s.params.regMap := by rw [State.commandMap, hk]
  by_contra ha
  obtain ⟨i, hi⟩ := shift_decodes_of_conforming h (Bool.not_eq_true _ ▸ ha) hc
  rw [hmap, hi] at he
  cases he

/-! ### What the requests send and refuse -/

/-- READ's command byte has bit 0 set and bits 7 to 1 of the operand (R84). -/
theorem getLsbD_readCommand (addr : Byte) (i : Nat) :
    (readCommand addr).getLsbD i = (addr.getLsbD i || decide (i = 0)) := by
  simp [readCommand, BitVec.getLsbD_one]

/-- WRITE's command byte has bit 0 clear and bits 7 to 1 of the operand (R85). -/
theorem getLsbD_writeCommand (addr : Byte) (i : Nat) :
    (writeCommand addr).getLsbD i = (addr.getLsbD i && !decide (i = 0)) := by
  have hmask : (0xFE : Byte) = ~~~1#8 := rfl
  rw [writeCommand, hmask, BitVec.getLsbD_and, BitVec.getLsbD_not, BitVec.getLsbD_one]
  by_cases hi : i < 8
  · simp [hi]
  · simp [BitVec.getLsbD_of_ge addr i (Nat.not_lt.mp hi)]

theorem acceptRamBurst_missing {s : State} (h : s.params.hasRamBurst = false) (op : HostOp) (cmd tx : Byte) (buf : Memory) :
    s.acceptRamBurst op cmd tx buf = s.reject .invalidOperation := by
  simp [State.acceptRamBurst, h]

end Sys2Proof.Machine

namespace Sys2Proof.Proofs

open Sys2Proof Sys2Proof.Machine

/-- Settles O54: a step could stop only before a byte that names nothing, and there a conforming machine's chip has an abort recorded. -/
theorem conformingMachineNeverStops : Obligations.ConformingMachineNeverStops := by
  intro s h
  exact step_answers fun hturn => badCommand_answers (aborted_of_badCommand h hturn)

/-- Settles O3: each word is decoded by evaluation. -/
theorem wordsOfTheSpecDecode : Obligations.WordsOfTheSpecDecode := by
  unfold Obligations.WordsOfTheSpecDecode
  decide

/-- Settles O10: codes 6 and 7 are rejected always, and the RAM bursts in a build without them. -/
theorem reservedCodesAreRejected : Obligations.ReservedCodesAreRejected := by
  intro addr wdata payload s hr rejected
  refine ⟨onRequest_ready hr _, onRequest_ready hr _, fun hb => ⟨?_, ?_⟩⟩
  · exact (onRequest_ready hr _).trans (congrArg _ (acceptRamBurst_missing hb _ _ _ _))
  · exact (onRequest_ready hr _).trans (congrArg _ (acceptRamBurst_missing hb _ _ _ _))

/-- Settles O13: the request is accepted with the command byte whose bits are read off. -/
theorem readFlagIsForced : Obligations.ReadFlagIsForced := by
  intro addr v s hr hv
  refine ⟨⟨_, readCommand addr, readIsAccepted addr v s hr hv, rfl, ?_, fun i hi => ?_⟩,
    ⟨_, writeCommand addr, writeIsAccepted addr v s hr hv, rfl, ?_, fun i hi => ?_⟩⟩
  · rw [getLsbD_readCommand, decide_eq_true rfl, Bool.or_true]
  · rw [getLsbD_readCommand, decide_eq_false (Nat.ne_of_gt hi), Bool.or_false]
  · rw [getLsbD_writeCommand, decide_eq_true rfl, Bool.not_true, Bool.and_false]
  · rw [getLsbD_writeCommand, decide_eq_false (Nat.ne_of_gt hi), Bool.not_false, Bool.and_true]

end Sys2Proof.Proofs


/-! PROOFS. Every trace is one transaction (40_primitives.md R100 to R107): `start`, the command byte, a data phase that moves neither CE
nor the line's direction, and `stop`; and where in it a read hands the line off (R103, R246). -/

namespace Sys2Proof.Machine

open Sys2Proof

/-! ### The data phase -/

/-- Every byte delivered has all its bits sampled by then (R104, R106). -/
def DeliversWholeBytes (t : List Entry) : Prop :=
  ∀ n e, t[n]? = some e → e.dest ≠ .nowhere → ∀ k, Event.sample k ∈ eventsOf (t.take (n + 1))

theorem deliversWholeBytes_of_nowhere {t : List Entry} (h : ∀ e ∈ t, e.dest = .nowhere) : DeliversWholeBytes t :=
  fun _ e he hdest => absurd (h e (List.mem_of_getElem? he)) hdest

theorem deliversWholeBytes_append {a b : List Entry} (ha : DeliversWholeBytes a) (hb : DeliversWholeBytes b) :
    DeliversWholeBytes (a ++ b) := by
  intro n e he hdest k
  rw [List.take_append, eventsOf_append, List.mem_append]
  rw [List.getElem?_append] at he
  split at he
  · exact .inl (ha n e he hdest k)
  · have hn : n + 1 - a.length = n - a.length + 1 := by omega
    exact .inr (hn ▸ hb _ e he hdest k)

/-- What the entries between the command byte and `stop` keep to, the clock being at `clk` at their start: no `CE`, no `DIR`, the clock
low at their end, and every byte delivered whole. -/
structure DataPhase (clk : Bool) (body : List Entry) : Prop where
  phase  : ∀ e ∈ body, e.phase ≠ .idle
  noCe   : ∀ e ∈ body, ∀ b, e.event ≠ .ce b
  noDir  : ∀ e ∈ body, ∀ d, e.event ≠ .dir d
  clkLow : ∀ ce dout dir, ((Levels.mk ce clk dout dir).afterAll (eventsOf body)).clk = false
  whole  : DeliversWholeBytes body

theorem dataPhase_append {clk : Bool} {a b : List Entry} (ha : DataPhase clk a) (hb : DataPhase false b) :
    DataPhase clk (a ++ b) where
  phase  := fun e he => (List.mem_append.mp he).elim (ha.phase e) (hb.phase e)
  noCe   := fun e he => (List.mem_append.mp he).elim (ha.noCe e) (hb.noCe e)
  noDir  := fun e he => (List.mem_append.mp he).elim (ha.noDir e) (hb.noDir e)
  clkLow := fun ce dout dir => by
    have hlow := ha.clkLow ce dout dir
    rw [eventsOf_append, afterAll_append]
    generalize (Levels.mk ce clk dout dir).afterAll (eventsOf a) = lv at hlow
    obtain ⟨ce', clk', dout', dir'⟩ := lv
    subst hlow
    exact hb.clkLow ce' dout' dir'
  whole  := deliversWholeBytes_append ha.whole hb.whole

theorem dataPhase_nil : DataPhase false [] where
  phase  := fun _ he => absurd he List.not_mem_nil
  noCe   := fun _ he => absurd he List.not_mem_nil
  noDir  := fun _ he => absurd he List.not_mem_nil
  clkLow := fun _ _ _ => rfl
  whole  := deliversWholeBytes_of_nowhere fun _ he => absurd he List.not_mem_nil

theorem dataPhase_flatMap {α : Type} {l : List α} {f : α → List Entry} (h : ∀ a ∈ l, DataPhase false (f a)) :
    DataPhase false (l.flatMap f) := by
  induction l with
  | nil => exact dataPhase_nil
  | cons a rest ih =>
    exact dataPhase_append (h a List.mem_cons_self) (ih fun b hb => h b (List.mem_cons_of_mem a hb))

/-- The events of `write_bits` move no CE, and the line's direction only to release it. -/
theorem writeBits_kinds {phase : Phase} {idx : Option (Fin 31)} {v : Byte} {rel : Bool} {e : Entry}
    (h : e ∈ writeBits phase idx v rel) :
    (e.phase = phase ∨ e.phase = .lineReleased) ∧ (∀ b, e.event ≠ .ce b) ∧ (rel = false → ∀ d, e.event ≠ .dir d) := by
  obtain ⟨i, -, hi⟩ := List.mem_flatMap.mp h
  rcases List.mem_append.mp hi with hi | hi
  · simp only [List.mem_cons, List.not_mem_nil, or_false] at hi
    rcases hi with rfl | rfl | rfl | rfl <;> exact ⟨.inl rfl, nofun, fun _ => nofun⟩
  · split at hi <;> simp only [List.mem_cons, List.not_mem_nil, or_false] at hi
    · rename_i hrel
      subst hi
      exact ⟨.inr rfl, nofun, fun hc => by simp [hc] at hrel⟩
    · rcases hi with rfl | rfl <;> exact ⟨.inl rfl, nofun, fun _ => nofun⟩

theorem dataPhase_writeBits {phase : Phase} (hphase : phase ≠ .idle) (idx : Option (Fin 31)) (v : Byte) :
    DataPhase false (writeBits phase idx v false) where
  phase  := fun e he => by
    obtain ⟨h | h, -⟩ := writeBits_kinds he <;> rw [h]
    · exact hphase
    · decide
  noCe   := fun e he => have ⟨_, hce, _⟩ := writeBits_kinds he; hce
  noDir  := fun e he => have ⟨_, _, hdir⟩ := writeBits_kinds he; hdir rfl
  clkLow := fun ce dout dir => congrArg Levels.clk (writeBits_afterAll phase idx v false dout dir ce)
  whole  := deliversWholeBytes_of_nowhere fun e he => (mem_writeBits he).1

/-- The events of `read_bits` move the clock, wait and sample. -/
theorem readBits_kinds {clk : Bool} {idx : Option (Fin 31)} {dest : Dest} {e : Entry} (h : e ∈ readBits clk idx dest) :
    (∀ b, e.event ≠ .ce b) ∧ (∀ d, e.event ≠ .dir d) := by
  obtain ⟨i, -, hi⟩ := List.mem_flatMap.mp h
  rcases List.mem_append.mp hi with hi | hi
  · split at hi <;> simp only [List.mem_cons, List.not_mem_nil, or_false] at hi
    subst hi
    exact ⟨nofun, nofun⟩
  · simp only [List.mem_cons, List.not_mem_nil, or_false] at hi
    rcases hi with rfl | rfl | rfl | rfl <;> exact ⟨nofun, nofun⟩

/-- `read_bits` samples all eight bits (R106). -/
theorem sample_mem_readBits (clk : Bool) (idx : Option (Fin 31)) (dest : Dest) (k : Fin 8) :
    Event.sample k ∈ eventsOf (readBits clk idx dest) :=
  List.mem_map.mpr ⟨⟨.sample k, .reading, some k, idx, if k = 7 then dest else .nowhere⟩,
    List.mem_flatMap.mpr ⟨k, by revert k; decide, List.mem_append_right _ (by simp)⟩, rfl⟩

/-- Only the last entry of `read_bits` delivers its byte. -/
theorem readBits_last (clk : Bool) (idx : Option (Fin 31)) (dest : Dest) :
    ∃ init last, readBits clk idx dest = init ++ [last] ∧ last.dest = dest ∧ ∀ e ∈ init, e.dest = .nowhere := by
  refine ⟨(readBits clk idx .nowhere).dropLast, ⟨.sample 7, .reading, some 7, idx, dest⟩, by cases clk <;> rfl, rfl,
    fun e he => ?_⟩
  obtain ⟨-, -, hdest⟩ := mem_readBits (List.mem_of_mem_dropLast he)
  rw [hdest, ite_self]

theorem readBits_wholeBytes (clk : Bool) (idx : Option (Fin 31)) (dest : Dest) :
    DeliversWholeBytes (readBits clk idx dest) := by
  intro n e he hdest k
  have hall := sample_mem_readBits clk idx dest k
  obtain ⟨init, last, heq, -, hinit⟩ := readBits_last clk idx dest
  rw [heq] at he hall ⊢
  have hn : init.length ≤ n := by
    by_contra hlt
    rw [List.getElem?_append_left (by omega)] at he
    exact hdest (hinit e (List.mem_of_getElem? he))
  rw [List.take_of_length_le (by simp; omega)]
  exact hall

theorem dataPhase_readBits (clk : Bool) (idx : Option (Fin 31)) (dest : Dest) :
    DataPhase clk (readBits clk idx dest) where
  phase  := fun e he => by rw [(mem_readBits he).1]; decide
  noCe   := fun e he => (readBits_kinds he).1
  noDir  := fun e he => (readBits_kinds he).2
  clkLow := fun ce dout dir => congrArg Levels.clk (readBits_afterAll clk ce dout dir idx dest)
  whole  := readBits_wholeBytes clk idx dest

/-- The bytes of a burst read of `n` bytes (R140, R142). -/
def burstReads (n : Nat) : List Entry := (burstIndices n).flatMap (fun k => readBits (k == 0) (some k) (.buf k))

/-- The first `read_bits` of a burst finds the clock high, and each later one low (R105). -/
theorem burstReads_cons {n : Nat} (hn : n ≤ 30) :
    ∃ rest : List (Fin 31), burstReads (n + 1) =
      readBits true (some 0) (.buf 0) ++ rest.flatMap (fun k => readBits false (some k) (.buf k)) := by
  obtain ⟨rest, hcons, hrest, -⟩ := burstIndices_cons hn
  refine ⟨rest, ?_⟩
  rw [burstReads, hcons, List.flatMap_cons]
  congr 1
  exact List.flatMap_congr fun k hk => by rw [beq_eq_false_iff_ne.mpr (hrest k hk)]

theorem dataPhase_burstReads {n : Nat} (hn : n ≤ 30) : DataPhase true (burstReads (n + 1)) := by
  obtain ⟨rest, heq⟩ := burstReads_cons hn
  rw [heq]
  exact dataPhase_append (dataPhase_readBits true _ _) (dataPhase_flatMap fun k _ => dataPhase_readBits false _ _)

/-! ### The transaction -/

/-- `start` and the command byte (R100, R102, R103). -/
def headEntries (cmd : Byte) (isRead : Bool) : List Entry := startEntries ++ writeBits .addressing none cmd isRead

/-- A whole transaction. -/
def transaction (cmd : Byte) (isRead : Bool) (body : List Entry) : List Entry := headEntries cmd isRead ++ body ++ stopEntries

/-- The data phase of the operation in hand (R130, R131, R140 to R143). -/
def State.operationBody (s : State) : List Entry :=
  match s.opInHand with
  | .read => readBits true none .rdata
  | .write => writeBits .writing none (valueOr .tx 0 s.tx) false
  | .burstReadClock => burstReads Config.clockBurstLen
  | .burstReadRam => burstReads Config.ramBurstLen
  | .burstWriteClock =>
    (readRange s.buf (burstIndices Config.clockBurstLen)).flatMap (fun kv => writeBits .writing (some kv.1) kv.2 false)
  | .burstWriteRam =>
    (readRange s.buf (burstIndices Config.ramBurstLen)).flatMap (fun kv => writeBits .writing (some kv.1) kv.2 false)

theorem operationTrace_eq (s : State) :
    s.operationTrace = transaction s.cmdInHand s.opInHand.isRead s.operationBody := by
  unfold State.operationTrace State.operationBody
  cases s.opInHand <;> rfl

/-- The hand-off leaves the clock high for a read's data phase, and low for a write's (R103). -/
theorem dataPhase_operationBody (s : State) : DataPhase s.opInHand.isRead s.operationBody := by
  unfold State.operationBody
  cases s.opInHand with
  | read => exact dataPhase_readBits true _ _
  | write => exact dataPhase_writeBits (by decide) _ _
  | burstReadClock => exact dataPhase_burstReads (n := 7) (by decide)
  | burstReadRam => exact dataPhase_burstReads (n := 30) (by decide)
  | burstWriteClock => exact dataPhase_flatMap fun kv _ => dataPhase_writeBits (by decide) _ _
  | burstWriteRam => exact dataPhase_flatMap fun kv _ => dataPhase_writeBits (by decide) _ _

/-- The command byte begins with the setup of its bit 0. -/
theorem headEntries_events (cmd : Byte) (isRead : Bool) :
    eventsOf (headEntries cmd isRead) =
      [.dir .out, .ce true, .wait .ceSu, .dout (cmd.getLsbD 0), .wait .dsu, .clk true] ++
        eventsOf ((writeBits .addressing none cmd isRead).drop 3) := rfl

/-- A read's command byte ends with its eighth rising edge and the hand-off. -/
theorem headEntries_handOff (cmd : Byte) :
    eventsOf (headEntries cmd true) = eventsOf ((headEntries cmd true).take 47) ++ [.clk true, .wait .dh, .dir .in] := rfl

/-- A read's data phase begins with the falling edge of its first bit (R104). -/
theorem readBits_firstFall (idx : Option (Fin 31)) (dest : Dest) :
    eventsOf (readBits true idx dest) = [.wait .rh, .clk false] ++ eventsOf ((readBits true idx dest).drop 2) := rfl

theorem burstReads_firstFall {n : Nat} (hn : n ≤ 30) :
    ∃ rest, eventsOf (burstReads (n + 1)) = [.wait .rh, .clk false] ++ rest := by
  obtain ⟨later, heq⟩ := burstReads_cons hn
  rw [heq, eventsOf_append, readBits_firstFall, List.append_assoc]
  exact ⟨_, rfl⟩

end Sys2Proof.Machine

namespace Sys2Proof.Proofs

open Sys2Proof Sys2Proof.Machine

/-- Settles O27: the trace is a transaction, whose command byte and data phase move no CE. -/
theorem everyTraceIsOneFramedTransaction : Obligations.EveryTraceIsOneFramedTransaction := by
  intro s
  refine ⟨eventsOf ((writeBits .addressing none s.cmdInHand s.opInHand.isRead).drop 3) ++ eventsOf s.operationBody, ?_,
    fun b hb => ?_⟩
  · rw [operationTrace_eq, transaction, eventsOf_append, eventsOf_append, headEntries_events]
    simp only [List.append_assoc]
    rfl
  · rcases List.mem_append.mp hb with hb | hb <;> obtain ⟨e, he, hev⟩ := List.mem_map.mp hb
    · obtain ⟨-, hce, -⟩ := writeBits_kinds (List.mem_of_mem_drop he)
      exact hce b hev
    · exact (dataPhase_operationBody s).noCe e he b hev

/-- Settles O30: what stands before the hand-off and after it in a read's transaction. -/
theorem handOffComesBeforeTheClockFalls : Obligations.HandOffComesBeforeTheClockFalls := by
  intro cmd t ht
  have hbody : ∃ body, t = transaction cmd true body ∧ DataPhase true body ∧
      ∃ rest, eventsOf body = [.wait .rh, .clk false] ++ rest := by
    simp only [List.mem_cons, List.not_mem_nil, or_false] at ht
    rcases ht with rfl | rfl | rfl
    · exact ⟨_, rfl, dataPhase_readBits true _ _, _, readBits_firstFall _ _⟩
    · exact ⟨_, rfl, dataPhase_burstReads (n := 7) (by decide), burstReads_firstFall (by decide)⟩
    · exact ⟨_, rfl, dataPhase_burstReads (n := 30) (by decide), burstReads_firstFall (by decide)⟩
  obtain ⟨body, rfl, hphase, rest, hrest⟩ := hbody
  have hafter : ∀ d, Event.dir d ∉ rest ++ eventsOf stopEntries := by
    intro d hd
    rcases List.mem_append.mp hd with hd | hd
    · obtain ⟨e, he, hev⟩ := List.mem_map.mp (hrest ▸ List.mem_append_right _ hd : Event.dir d ∈ eventsOf body)
      exact hphase.noDir e he d hev
    · simp [stopEntries, eventsOf, frameEntry] at hd
  refine ⟨eventsOf ((headEntries cmd true).take 47), rest ++ eventsOf stopEntries, ?_, rfl, ?_, hafter _, hafter _⟩
  · rw [transaction, eventsOf_append, eventsOf_append, headEntries_handOff, hrest]
    simp only [List.append_assoc, List.cons_append, List.nil_append]
  · simp [headEntries, startEntries, frameEntry, writeBits, bitIndices, writeBit, eventsOf]

end Sys2Proof.Proofs


/-! PROOFS. What a response holds and when it comes (40_primitives.md R108; 42_burst.md R140, R142), and what `SAMPLE` writes (R106). -/

namespace Sys2Proof.Machine

open Sys2Proof

/-! ### The response -/

/-- The bytes of a burst that hold a value, as cells, read as in `buf`. -/
theorem read_cellsOf_readRange {m : Memory} {n : Nat} (hn : n ≤ 31)
    (h : ∀ k : Fin 31, k.val < n → (Cells.read m k.val).isSome = true) (k : Nat) :
    Cells.read (cellsOf (readRange m (burstIndices n))) k = if k < n then Cells.read m k else none := by
  have hcells : cellsOf (readRange m (burstIndices n)) =
      (List.range n).map (fun a => (a, valueOr .buf a (Cells.read m a))) := by
    have hrange : (burstIndices n).map Fin.val = List.range n := by
      rw [burstIndices, List.map_take, List.map_coe_finRange_eq_range, List.take_range, Nat.min_eq_left hn]
    rw [← hrange]
    simp [cellsOf, readRange]
  rw [hcells, read_map_pair _ (fun a => valueOr .buf a (Cells.read m a))]
  simp only [List.mem_range]
  split
  · rename_i hk
    obtain ⟨v, hv⟩ := Option.isSome_iff_exists.mp (h ⟨k, by omega⟩ hk)
    simp only at hv
    rw [hv, valueOr_some]
  · rfl

/-- The first `n` indexes of a burst are those below `n`. -/
theorem mem_burstIndices {n : Nat} {k : Fin 31} : k ∈ burstIndices n ↔ k.val < n := by
  rw [burstIndices, List.mem_take_iff_getElem]
  constructor
  · rintro ⟨i, hi, rfl⟩
    simp at hi ⊢
    omega
  · intro hk
    exact ⟨k.val, by simp [hk], by simp⟩

/-- A read of registers that all hold a value records nothing. -/
theorem noteRead_true (s : State) : s.noteRead true = s := by
  simp [State.noteRead]

/-- How many bytes an operation gives the host in `rsp_rbuf` (R140, R142). -/
def HostOp.burstBytes (op : HostOp) : Nat :=
  match op with
  | .burstReadClock => Config.clockBurstLen
  | .burstReadRam => Config.ramBurstLen
  | _ => 0

/-- An operation of the host whose bytes have all been received responds with them, and with no others (R108). -/
theorem complete_eq_respond {s : State} (hi : s.initPending = false)
    (h : ∀ k : Fin 31, k.val < s.opInHand.burstBytes → (Cells.read s.buf k.val).isSome = true) :
    ∃ rbuf, s.complete = s.respond rbuf ∧ (s.opInHand.burstBytes = 0 → rbuf = s.rspRbuf) ∧
      (s.opInHand.burstBytes ≠ 0 →
        ∀ k, Cells.read rbuf k = if k < s.opInHand.burstBytes then Cells.read s.buf k else none) := by
  have hbytes : ∀ n, n ≤ 31 → (∀ k : Fin 31, k.val < n → (Cells.read s.buf k.val).isSome = true) →
      s.respondBytes n = s.respond (cellsOf (readRange s.buf (burstIndices n))) := fun n _ hn => by
    rw [State.respondBytes, holdsRange_iff.mpr fun k hk => hn k (mem_burstIndices.mp hk), noteRead_true]
  rw [State.complete, if_neg (by rw [hi]; decide)]
  cases hop : s.opInHand <;> rw [hop] at h
  case burstReadClock => exact ⟨_, hbytes 8 (by decide) h, nofun, fun _ => read_cellsOf_readRange (by decide) h⟩
  case burstReadRam => exact ⟨_, hbytes 31 (by decide) h, nofun, fun _ => read_cellsOf_readRange (by decide) h⟩
  all_goals exact ⟨_, rfl, fun _ => rfl, fun hc => absurd rfl hc⟩

theorem opInHand_of_op {s : State} {op : HostOp} (h : s.op = some op) : s.opInHand = op := by
  rw [State.opInHand, h, Option.getD_some]

/-! ### `SAMPLE` and `rx` -/

/-- The state with another `rx`. -/
def State.withRx (s : State) (rx : Cells Bool) : State := { s with rx := rx }

/-- No event reads `rx`: with another `rx`, only `rx` comes out otherwise. -/
theorem emit_withRx (e : Event) (s : State) (rx : Cells Bool) :
    emit e (s.withRx rx) = (emit e s).withRx (emit e (s.withRx rx)).rx := by
  have haborted : (s.withRx rx).aborted = s.aborted := rfl
  cases ha : s.aborted <;> cases e <;> simp only [emit, applyEvent, State.afterAbort, haborted, ha] <;> rfl

/-- `SAMPLE` writes one bit of `rx`, and no other event any (R106). -/
theorem emit_rx_cases (e : Event) (s : State) :
    (∃ j : Fin 8, e = .sample j ∧ (emit e s).rx = Cells.write s.rx j.val s.line) ∨
    ((∀ j, e ≠ .sample j) ∧ (emit e s).rx = s.rx) := by
  by_cases h : ∃ j, e = .sample j
  · obtain ⟨j, rfl⟩ := h
    exact .inl ⟨j, rfl, emit_sample_rx j s⟩
  · have hne : ∀ j, e ≠ .sample j := fun j hj => h ⟨j, hj⟩
    exact .inr ⟨hne, emit_rx hne s⟩

/-- Once bit `k` of `rx` holds a value it goes on holding one. -/
theorem emit_rx_isSome {s : State} {k : Nat} (e : Event) (h : (Cells.read s.rx k).isSome = true) :
    (Cells.read (emit e s).rx k).isSome = true := by
  rcases emit_rx_cases e s with ⟨j, -, hrx⟩ | ⟨-, hrx⟩ <;> rw [hrx]
  · rw [cells_read_write]
    split
    · rfl
    · exact h
  · exact h

/-- After an event bit `k` holds a value that owes nothing to the `rx` before, if it did before or the event samples it. -/
theorem emit_rx_settled {s : State} {rx : Cells Bool} {k : Fin 8} {e : Event}
    (h : e = .sample k ∨ ∃ b, Cells.read s.rx k.val = some b ∧ Cells.read rx k.val = some b) :
    ∃ b, Cells.read (emit e s).rx k.val = some b ∧ Cells.read (emit e (s.withRx rx)).rx k.val = some b := by
  have hline : (s.withRx rx).line = s.line := rfl
  by_cases he : e = .sample k
  · subst he
    exact ⟨s.line, by rw [emit_sample_rx, cells_read_write_same],
      by rw [emit_sample_rx, hline, cells_read_write_same]⟩
  · obtain ⟨b, hb, hb'⟩ := h.resolve_left he
    have hother : ∀ u : State, Cells.read (emit e u).rx k.val = Cells.read u.rx k.val := fun u => by
      rcases emit_rx_cases e u with ⟨j, rfl, hrx⟩ | ⟨-, hrx⟩ <;> rw [hrx]
      exact cells_read_write_other _ _ fun hc => he (by rw [Fin.ext hc])
    exact ⟨b, (hother s).trans hb, (hother _).trans hb'⟩

/-- After a list of events every bit they sample holds a value, whatever `rx` held before. -/
theorem emitAll_rx_settled {es : List Event} {s : State} {rx : Cells Bool} {k : Fin 8}
    (h : Event.sample k ∈ es ∨ ∃ b, Cells.read s.rx k.val = some b ∧ Cells.read rx k.val = some b) :
    ∃ b, Cells.read (emitAll es s).rx k.val = some b ∧ Cells.read (emitAll es (s.withRx rx)).rx k.val = some b := by
  induction es generalizing s rx with
  | nil => exact h.resolve_left List.not_mem_nil
  | cons e rest ih =>
    have hrest : emitAll (e :: rest) (s.withRx rx) =
        emitAll rest ((emit e s).withRx (emit e (s.withRx rx)).rx) := by
      rw [← emit_withRx]
      rfl
    rw [hrest]
    refine ih ?_
    rcases h with h | h
    · exact (List.mem_cons.mp h).symm.imp_right fun he => emit_rx_settled (.inl he.symm)
    · exact .inr (emit_rx_settled (.inr h))

/-- `rx` is a byte once all its bits hold a value (R106). -/
theorem assemble_isSome {rx : Cells Bool} (h : ∀ k : Fin 8, (Cells.read rx k.val).isSome = true) :
    (assemble rx).isSome = true := by
  have hread : ∀ k : Fin 8, ∃ b, Cells.read rx k.val = some b := fun k => Option.isSome_iff_exists.mp (h k)
  choose b hb using hread
  simp only [assemble, show Cells.read rx 0 = _ from hb 0, show Cells.read rx 1 = _ from hb 1,
    show Cells.read rx 2 = _ from hb 2, show Cells.read rx 3 = _ from hb 3, show Cells.read rx 4 = _ from hb 4,
    show Cells.read rx 5 = _ from hb 5, show Cells.read rx 6 = _ from hb 6, show Cells.read rx 7 = _ from hb 7,
    Option.isSome_some]

/-- The byte in `rx` is made of its bits alone. -/
theorem assemble_congr {rx rx' : Cells Bool} (h : ∀ k : Fin 8, Cells.read rx' k.val = Cells.read rx k.val) :
    assemble rx' = assemble rx := by
  simp only [assemble, show Cells.read rx' 0 = _ from h 0, show Cells.read rx' 1 = _ from h 1,
    show Cells.read rx' 2 = _ from h 2, show Cells.read rx' 3 = _ from h 3, show Cells.read rx' 4 = _ from h 4,
    show Cells.read rx' 5 = _ from h 5, show Cells.read rx' 6 = _ from h 6, show Cells.read rx' 7 = _ from h 7]
  rfl

end Sys2Proof.Machine

namespace Sys2Proof.Proofs

open Sys2Proof Sys2Proof.Machine

/-- Settles O25: the completion, operation by operation. -/
theorem completionGivesTheResponse : Obligations.CompletionGivesTheResponse := by
  intro s op hturn hw hl hi hop hheld hclock hram
  have hhand := opInHand_of_op hop
  have hheldBytes : ∀ k : Fin 31, k.val < s.opInHand.burstBytes → (Cells.read s.buf k.val).isSome = true := by
    rw [hhand]
    cases op with
    | burstReadClock => exact hclock rfl
    | burstReadRam => exact fun k _ => hram rfl k
    | _ => exact fun k hk => absurd hk (Nat.not_lt_zero _)
  obtain ⟨rbuf, hcomplete, hnone, hbytes⟩ := complete_eq_respond hi hheldBytes
  rw [hhand] at hnone hbytes
  refine ⟨rbuf, ?_, ?_, ?_, ?_⟩
  · rw [step_sequencer hturn, sequencerStep_complete hw hl, hheld, noteRead_true, hcomplete]
    rfl
  · rintro rfl
    exact hbytes (by decide)
  · rintro rfl
    exact hbytes (by decide)
  · intro hc hr
    exact hnone (by
      cases op with
      | burstReadClock => exact absurd rfl hc
      | burstReadRam => exact absurd rfl hr
      | _ => rfl)

/-- Settles O26: of the moves, only a rejection, which is made at IDLE, and the end of an operation set `rsp_valid`. -/
theorem responseComesOnlyAtTheEnd : Obligations.ResponseComesOnlyAtTheEnd := by
  intro s t hstep h0 h1
  obtain ⟨taken, u, rfl, hmove⟩ := step_move hstep
  rw [hostTurn_rspValid] at h1
  rw [hostTurn_phase]
  cases hmove with
  | reject h hr st => exact ((reqReady_iff s).mp hr).1
  | respond => rfl
  | finishInit => rfl
  | reset => rfl
  | periph => exact absurd (h0.symm.trans h1) (by decide)
  | accept => cases h1
  | tick => exact absurd (h0.symm.trans h1) (by decide)
  | init => rw [beginInit_eq, beginOp_rspValid, h0] at h1; cases h1
  | entry h hp e held => simp [performEntry_eq, h0] at h1

/-- Settles O32: `SAMPLE` writes its bit, and the eight samples of `read_bits` settle all eight. -/
theorem sampleWritesOneBit : Obligations.SampleWritesOneBit := by
  refine ⟨fun s k => ?_, fun s rx clk idx dest => ?_⟩
  · rw [emit_sample_rx]
    exact ⟨cells_read_write_same _ _ _, fun j hj => cells_read_write_other _ _ hj⟩
  · have hbits := fun k => emitAll_rx_settled (s := s) (rx := rx) (.inl (sample_mem_readBits clk idx dest k))
    choose b hb hb' using hbits
    exact ⟨assemble_isSome fun k => by rw [hb k]; rfl, assemble_congr fun k => (hb' k).trans (hb k).symm⟩

end Sys2Proof.Proofs


/-! PROOFS. The entries of a transaction by their place (40_primitives.md R100 to R105): which events stand where, and at which latches. -/

namespace Sys2Proof.Machine

open Sys2Proof

theorem headEntries_length (cmd : Byte) (isRead : Bool) :
    (headEntries cmd isRead).length = if isRead then 50 else 51 := by
  cases isRead <;> rfl

theorem headEntries_afterAll (cmd : Byte) (isRead dout : Bool) (dir : Dir) :
    (Levels.mk false false dout dir).afterAll (eventsOf (headEntries cmd isRead)) =
      ⟨true, isRead, cmd.getLsbD 7, if isRead then .in else .out⟩ := by
  cases isRead <;> rfl

/-- The `i`-th rising edge of the command byte, with its bit on the driven line (R64, R102). -/
theorem headEntries_rise (cmd : Byte) (isRead dout : Bool) (dir : Dir) (i : Fin 8) :
    (Levels.mk false false dout dir).afterAll (eventsOf ((headEntries cmd isRead).take (6 * i.val + 5))) =
      ⟨true, false, cmd.getLsbD i.val, .out⟩ := by
  fin_cases i <;> cases isRead <;> rfl

/-- The clock rises at every sixth event of the command byte and at no other. -/
theorem headEntries_rises (cmd : Byte) (isRead : Bool) :
    ((headEntries cmd isRead).take 48).map (fun e => decide (e.event = .clk true)) =
      (List.range 48).map (fun n => decide (n % 6 = 5)) := by
  cases isRead <;> rfl

/-- After `start` has raised CE, the head moves it no more. -/
theorem headEntries_noCe (cmd : Byte) (isRead : Bool) : ∀ e ∈ (headEntries cmd isRead).drop 2, ∀ b, e.event ≠ .ce b := by
  have hdrop : (headEntries cmd isRead).drop 2 =
      frameEntry .active (.wait .ceSu) :: writeBits .addressing none cmd isRead := rfl
  intro e he
  rw [hdrop] at he
  rcases List.mem_cons.mp he with rfl | he
  · exact nofun
  · obtain ⟨-, hce, -⟩ := writeBits_kinds he
    exact hce

/-- The head's last two entries in a read: the hold of the eighth bit and the hand-off (R103). -/
theorem headEntries_handOff_entries {cmd : Byte} {n : Nat} (hn : 48 ≤ n) {e : Entry}
    (he : (headEntries cmd true)[n]? = some e) : e.event = .wait .dh ∨ e.event = .dir .in := by
  have hlt := (List.getElem?_eq_some_iff.mp he).1
  rw [headEntries_length] at hlt
  have hcases : n = 48 ∨ n = 49 := by simp at hlt; omega
  rcases hcases with rfl | rfl <;> obtain rfl := Option.some.inj he
  · exact .inl rfl
  · exact .inr rfl

theorem transaction_length (cmd : Byte) (isRead : Bool) (body : List Entry) :
    (transaction cmd isRead body).length = (if isRead then 50 else 51) + body.length + 2 := by
  rw [transaction, List.length_append, List.length_append, headEntries_length]
  rfl

/-- The first 48 entries are those of the head. -/
theorem transaction_take {cmd : Byte} {isRead : Bool} {body : List Entry} {n : Nat} (hn : n ≤ 48) :
    (transaction cmd isRead body).take n = (headEntries cmd isRead).take n := by
  have hlen : n ≤ (headEntries cmd isRead).length := by
    rw [headEntries_length]
    split <;> omega
  rw [transaction, List.append_assoc, List.take_append_of_le_length hlen]

theorem transaction_getElem? {cmd : Byte} {isRead : Bool} {body : List Entry} {n : Nat} (hn : n < 48) :
    (transaction cmd isRead body)[n]? = (headEntries cmd isRead)[n]? := by
  rw [← List.getElem?_take_of_lt (Nat.lt_succ_self n), transaction_take (by omega),
    List.getElem?_take_of_lt (Nat.lt_succ_self n)]

/-- An event of the command phase: a rising edge that shows the next bit, or none and no CE event. -/
theorem transaction_command {cmd : Byte} {isRead : Bool} {body : List Entry} {n : Nat} (h2 : 2 ≤ n) (hn : n < 48) {e : Entry}
    (he : (transaction cmd isRead body)[n]? = some e) :
    (∀ b, e.event ≠ .ce b) ∧ (e.event = .clk true ↔ n % 6 = 5) := by
  rw [transaction_getElem? hn] at he
  constructor
  · refine headEntries_noCe cmd isRead e (List.mem_of_getElem? (i := n - 2) ?_)
    rw [List.getElem?_drop, ← he]
    congr 1
    omega
  · have hkind := congrArg (fun l => l[n]?) (headEntries_rises cmd isRead)
    simp only [List.getElem?_map, List.getElem?_take_of_lt hn, he, List.getElem?_range hn, Option.map_some,
      Option.some.injEq, decide_eq_decide] at hkind
    exact hkind

/-- The latches before a rising edge of the command byte. -/
theorem transaction_rise {cmd : Byte} {isRead : Bool} {body : List Entry} {n : Nat} (hn : n < 48) (h5 : n % 6 = 5)
    (dout : Bool) (dir : Dir) :
    (Levels.mk false false dout dir).afterAll (eventsOf ((transaction cmd isRead body).take n)) =
      ⟨true, false, cmd.getLsbD (n / 6), .out⟩ := by
  have hi : n / 6 < 8 := by omega
  have hplace : n = 6 * (n / 6) + 5 := by omega
  rw [transaction_take (by omega)]
  conv_lhs => rw [hplace]
  exact headEntries_rise cmd isRead dout dir ⟨n / 6, hi⟩

/-- Events that move no direction leave it. -/
theorem afterAll_dir {es : List Event} (h : ∀ d, Event.dir d ∉ es) (lv : Levels) : (lv.afterAll es).dir = lv.dir := by
  induction es generalizing lv with
  | nil => rfl
  | cons e rest ih =>
    refine (ih (fun d hd => h d (List.mem_cons_of_mem e hd)) (lv.after e)).trans ?_
    cases e with
    | dir d => exact absurd List.mem_cons_self (h d)
    | _ => rfl

/-- Between the command byte and `stop` no event moves CE; in a read none drives the line again, and where one lets the clock fall the
line is released (R103, R246). -/
theorem transaction_transfer {cmd : Byte} {isRead : Bool} {body : List Entry} (hbody : DataPhase isRead body) {n : Nat}
    (hn : 48 ≤ n) (hlen : n + 2 < (transaction cmd isRead body).length) {e : Entry}
    (he : (transaction cmd isRead body)[n]? = some e) :
    (∀ b, e.event ≠ .ce b) ∧
    (isRead = true → e.event ≠ .dir .out ∧
      (e.event = .clk false → ∀ dout dir,
        ((Levels.mk false false dout dir).afterAll (eventsOf ((transaction cmd isRead body).take n))).dir = .in)) := by
  have hfront : n < (headEntries cmd isRead ++ body).length := by
    rw [transaction, List.length_append] at hlen
    have hstop : stopEntries.length = 2 := rfl
    omega
  rw [transaction, List.getElem?_append_left hfront] at he
  rw [transaction, List.take_append_of_le_length hfront.le]
  by_cases hhead : n < (headEntries cmd isRead).length
  · rw [List.getElem?_append_left hhead] at he
    refine ⟨headEntries_noCe cmd isRead e (List.mem_of_getElem? (i := n - 2) ?_), ?_⟩
    · rw [List.getElem?_drop, ← he]
      congr 1
      omega
    · rintro rfl
      rcases headEntries_handOff_entries hn he with h | h <;> rw [h] <;> exact ⟨nofun, nofun⟩
  · rw [List.getElem?_append_right (by omega)] at he
    have hmem := List.mem_of_getElem? he
    refine ⟨hbody.noCe e hmem, ?_⟩
    rintro rfl
    refine ⟨hbody.noDir e hmem _, fun _ dout dir => ?_⟩
    rw [List.take_append, List.take_of_length_le (by omega), eventsOf_append, afterAll_append, headEntries_afterAll,
      afterAll_dir]
    · rfl
    · intro d hd
      obtain ⟨e', he', hev⟩ := List.mem_map.mp hd
      exact hbody.noDir e' (List.mem_of_mem_take he') d hev

/-- `stop` is the last two entries (R101). -/
theorem transaction_stop {cmd : Byte} {isRead : Bool} {body : List Entry} {n : Nat} {e : Entry}
    (he : (transaction cmd isRead body)[n]? = some e) :
    (n + 2 = (transaction cmd isRead body).length → e.event = .ce false) ∧
    (n + 1 = (transaction cmd isRead body).length → e.event = .wait .ceRec) := by
  have hlen : (transaction cmd isRead body).length = (headEntries cmd isRead ++ body).length + 2 := by
    rw [transaction, List.length_append]
    rfl
  rw [hlen]
  constructor <;> intro hn <;> rw [transaction, List.getElem?_append_right (by omega)] at he
  · rw [show n - (headEntries cmd isRead ++ body).length = 0 by omega] at he
    obtain rfl := Option.some.inj he
    rfl
  · rw [show n - (headEntries cmd isRead ++ body).length = 1 by omega] at he
    obtain rfl := Option.some.inj he
    rfl

/-- A transaction ends with CE and the clock low (R101, R105). -/
theorem transaction_afterAll {cmd : Byte} {isRead : Bool} {body : List Entry} (hbody : DataPhase isRead body) (dout : Bool)
    (dir : Dir) :
    ((Levels.mk false false dout dir).afterAll (eventsOf (transaction cmd isRead body))).ce = false ∧
    ((Levels.mk false false dout dir).afterAll (eventsOf (transaction cmd isRead body))).clk = false := by
  rw [transaction, eventsOf_append, eventsOf_append, afterAll_append, afterAll_append, headEntries_afterAll]
  exact ⟨rfl, hbody.clkLow _ _ _⟩

/-- No entry of a transaction is of the phase IDLE. -/
theorem transaction_phase {cmd : Byte} {isRead : Bool} {body : List Entry} (hbody : DataPhase isRead body) :
    ∀ e ∈ transaction cmd isRead body, e.phase ≠ .idle := by
  have hstart : ∀ e ∈ startEntries, e.phase ≠ .idle := by decide
  have hstop : ∀ e ∈ stopEntries, e.phase ≠ .idle := by decide
  intro e he
  simp only [transaction, headEntries, List.mem_append] at he
  rcases he with ((he | he) | he) | he
  · exact hstart e he
  · obtain ⟨h | h, -⟩ := writeBits_kinds he <;> rw [h] <;> decide
  · exact hbody.phase e he
  · exact hstop e he

/-- Nothing is delivered outside the data phase. -/
theorem transaction_frame_nowhere (cmd : Byte) (isRead : Bool) :
    (∀ e ∈ headEntries cmd isRead, e.dest = .nowhere) ∧ ∀ e ∈ stopEntries, e.dest = .nowhere := by
  have hstart : ∀ e ∈ startEntries, e.dest = .nowhere := by decide
  exact ⟨fun e he => (List.mem_append.mp he).elim (hstart e) fun h => (mem_writeBits h).1, by decide⟩

/-- Every byte a transaction delivers is sampled whole. -/
theorem transaction_whole {cmd : Byte} {isRead : Bool} {body : List Entry} (hbody : DataPhase isRead body) :
    DeliversWholeBytes (transaction cmd isRead body) := by
  obtain ⟨hhead, hstop⟩ := transaction_frame_nowhere cmd isRead
  exact deliversWholeBytes_append (deliversWholeBytes_append (deliversWholeBytes_of_nowhere hhead) hbody.whole)
    (deliversWholeBytes_of_nowhere hstop)

theorem operationBody_nowhere {s : State} (h : s.opInHand.isRead = false) : ∀ e ∈ s.operationBody, e.dest = .nowhere := by
  have hburst : ∀ bytes : List (Fin 31 × Byte), ∀ e ∈ bytes.flatMap (fun kv => writeBits .writing (some kv.1) kv.2 false),
      e.dest = .nowhere := fun bytes e he => by
    obtain ⟨kv, -, he⟩ := List.mem_flatMap.mp he
    exact (mem_writeBits he).1
  unfold State.operationBody
  cases hop : s.opInHand <;> rw [hop] at h
  case write => exact fun e he => (mem_writeBits he).1
  case burstWriteClock => exact hburst _
  case burstWriteRam => exact hburst _
  all_goals cases h

/-- An operation that writes delivers nothing. -/
theorem operationTrace_nowhere {s : State} (h : s.opInHand.isRead = false) : ∀ e ∈ s.operationTrace, e.dest = .nowhere := by
  obtain ⟨hhead, hstop⟩ := transaction_frame_nowhere s.cmdInHand s.opInHand.isRead
  intro e he
  rw [operationTrace_eq, transaction, List.mem_append, List.mem_append] at he
  rcases he with (he | he) | he
  · exact hhead e he
  · exact operationBody_nowhere h e he
  · exact hstop e he

/-- A burst read delivers each of its bytes to `buf` (R140, R142). -/
theorem operationTrace_delivers {s : State} {k : Fin 31} (h : k.val < s.opInHand.burstBytes) :
    ∃ e ∈ s.operationTrace, e.dest = .buf k := by
  have hburst : ∀ cmd n, n ≤ 30 → k.val < n + 1 → ∃ e ∈ burstReadTrace cmd (n + 1), e.dest = .buf k := fun cmd n hn hk => by
    have hreceived : receivedAt (burstReadTrace cmd (n + 1)) = (burstIndices (n + 1)).map Dest.buf :=
      congrArg Shape.received (shapeOf_burstReadTrace cmd hn false .in)
    have hmem : Dest.buf k ∈ receivedAt (burstReadTrace cmd (n + 1)) := by
      rw [hreceived]
      exact List.mem_map_of_mem (mem_burstIndices.mpr hk)
    obtain ⟨e, he, hdest⟩ := List.mem_map.mp hmem
    exact ⟨e, (List.mem_filter.mp he).1, hdest⟩
  unfold State.operationTrace
  cases hop : s.opInHand <;> rw [hop] at h
  case burstReadClock => exact hburst _ 7 (by decide) h
  case burstReadRam => exact hburst _ 30 (by decide) h
  all_goals exact absurd h (Nat.not_lt_zero _)

end Sys2Proof.Machine


/-! PROOFS. The peripheral along a transaction (60_exceptions.md R213 to R216, R221): at rest, then taking the command byte in, then
sending or receiving, then at rest again. -/

namespace Sys2Proof.Machine

open Sys2Proof

/-! ### The stages of a transaction -/

/-- It has taken in `n` bits of the command byte. -/
structure Periph.TakingCommand (p : Periph) (cmd : Byte) (n : Nat) : Prop where
  mode  : p.mode = .cmd
  drive : p.drive = false
  nbits : p.nbits = n
  bits  : ∀ i, i < n → p.shift.getLsbD i = cmd.getLsbD i

/-- It has taken the command of an operation that reads: it sends, or has sent all, and drives the line only while the engine does not. -/
structure Periph.Sends (p : Periph) (dir : Dir) : Prop where
  present : p.kind ≠ .absent
  mode    : p.mode = .rdata ∨ p.mode = .ignore
  drive   : p.drive = true → dir = .in

/-- It has taken the command of an operation that writes. -/
structure Periph.Receives (p : Periph) : Prop where
  mode  : p.mode = .wdata ∨ p.mode = .ignore
  drive : p.drive = false

section

variable {p : Periph} {cmd : Byte} {isRead : Bool} {dir : Dir} {pos len : Nat}

theorem agreesWith_absent_iff (hk : p.kind = .absent) : p.agreesWith cmd isRead dir pos len ↔ p.drive = false := by
  simp [Periph.agreesWith, hk]

theorem agreesWith_rest_iff (hk : p.kind ≠ .absent) (h : pos < 2 ∨ len ≤ pos + 1) :
    p.agreesWith cmd isRead dir pos len ↔ p.atRest := by
  rw [Periph.agreesWith, if_pos h]
  exact ⟨fun ha => ha.2 hk, fun ha => ⟨fun _ => ha.1, fun _ => ha⟩⟩

theorem agreesWith_command_iff (hk : p.kind ≠ .absent) (h2 : 2 ≤ pos) (h48 : pos < 48) (hlen : pos + 1 < len) :
    p.agreesWith cmd isRead dir pos len ↔ p.TakingCommand cmd (pos / 6) := by
  have hrest : ¬ (pos < 2 ∨ len ≤ pos + 1) := by omega
  rw [Periph.agreesWith, if_neg hrest, if_pos h48]
  exact ⟨fun h => have ⟨hm, hd, hn, hb⟩ := h.2 hk; ⟨hm, hd, hn, hb⟩,
    fun h => ⟨fun hc => absurd hc hk, fun _ => ⟨h.mode, h.drive, h.nbits, h.bits⟩⟩⟩

theorem agreesWith_transfer_iff (hk : p.kind ≠ .absent) (h48 : 48 ≤ pos) (hlen : pos + 1 < len) :
    p.agreesWith cmd isRead dir pos len ↔
      (pos = 48 ∧ p.TakingCommand cmd 8) ∨ (isRead = true ∧ p.Sends dir) ∨ (isRead = false ∧ p.Receives) := by
  have hrest : ¬ (pos < 2 ∨ len ≤ pos + 1) := by omega
  have hbits : p.shift = cmd ↔ ∀ i, i < 8 → p.shift.getLsbD i = cmd.getLsbD i :=
    ⟨fun h i _ => by rw [h], fun h => BitVec.eq_of_getLsbD_eq h⟩
  rw [Periph.agreesWith, if_neg hrest, if_neg (Nat.not_lt.mpr h48), hbits]
  constructor
  · rintro ⟨-, h⟩
    rcases h hk with ⟨hpos, hm, hd, hn, hb⟩ | ⟨hr, hm, hd⟩ | ⟨hr, hm, hd⟩
    · exact .inl ⟨hpos, hm, hd, hn, hb⟩
    · exact .inr (.inl ⟨hr, hk, hm, hd⟩)
    · exact .inr (.inr ⟨hr, hm, hd⟩)
  · rintro (⟨hpos, h⟩ | ⟨hr, h⟩ | ⟨hr, h⟩) <;> refine ⟨fun hc => absurd hc hk, fun _ => ?_⟩
    · exact .inl ⟨hpos, h.mode, h.drive, h.nbits, h.bits⟩
    · exact .inr (.inl ⟨hr, h.mode, h.drive⟩)
    · exact .inr (.inr ⟨hr, h.mode, h.drive⟩)

theorem agreesWith_of_atRest (h : p.atRest) (hpos : pos < 2 ∨ len ≤ pos + 1) : p.agreesWith cmd isRead dir pos len := by
  by_cases hk : p.kind = .absent
  · exact (agreesWith_absent_iff hk).mpr h.1
  · exact (agreesWith_rest_iff hk hpos).mpr h

theorem agreesWith_of_takingCommand (h : p.TakingCommand cmd (pos / 6)) (h2 : 2 ≤ pos) (h48 : pos ≤ 48)
    (hlen : pos + 1 < len) : p.agreesWith cmd isRead dir pos len := by
  by_cases hk : p.kind = .absent
  · exact (agreesWith_absent_iff hk).mpr h.drive
  rcases Nat.lt_or_eq_of_le h48 with h48 | rfl
  · exact (agreesWith_command_iff hk h2 h48 hlen).mpr h
  · exact (agreesWith_transfer_iff hk (Nat.le_refl 48) hlen).mpr (.inl ⟨rfl, h⟩)

/-- A peripheral that agrees with the transaction drives the line only while the engine does not (R206). -/
theorem dir_of_agreesWith (h : p.agreesWith cmd isRead dir pos len) (hd : p.drive = true) : dir = .in := by
  by_cases hk : p.kind = .absent
  · cases ((agreesWith_absent_iff hk).mp h).symm.trans hd
  by_cases hrest : pos < 2 ∨ len ≤ pos + 1
  · cases ((agreesWith_rest_iff hk hrest).mp h).1.symm.trans hd
  by_cases h48 : pos < 48
  · cases ((agreesWith_command_iff hk (by omega) h48 (by omega)).mp h).drive.symm.trans hd
  · rcases (agreesWith_transfer_iff hk (by omega) (by omega)).mp h with ⟨-, h⟩ | ⟨-, h⟩ | ⟨-, h⟩
    · cases h.drive.symm.trans hd
    · exact h.drive hd
    · cases h.drive.symm.trans hd

/-- Where a whole command byte waits, the transaction stands at its eighth rising edge. -/
theorem takingCommand_of_commandReady (h : p.agreesWith cmd isRead dir pos len) (hc : p.commandReady = true) :
    pos = 48 ∧ pos + 1 < len ∧ p.TakingCommand cmd 8 := by
  obtain ⟨hmode, hbits, hk⟩ := (commandReady_iff p).mp hc
  by_cases hrest : pos < 2 ∨ len ≤ pos + 1
  · rw [commandReady_of_atRest ((agreesWith_rest_iff hk hrest).mp h)] at hc
    cases hc
  by_cases h48 : pos < 48
  · have hn := ((agreesWith_command_iff hk (by omega) h48 (by omega)).mp h).nbits
    omega
  · rcases (agreesWith_transfer_iff hk (by omega) (by omega)).mp h with ⟨hpos, h⟩ | ⟨-, h⟩ | ⟨-, h⟩
    · exact ⟨hpos, by omega, h⟩
    · rcases h.mode with hm | hm <;> cases hm.symm.trans hmode
    · rcases h.mode with hm | hm <;> cases hm.symm.trans hmode

/-- It ends its wait by taking the command, or by ignoring the transaction. -/
theorem agreesWith_taken {q : Periph} (h : p.agreesWith cmd isRead dir pos len) (hc : p.commandReady = true)
    (hkind : q.kind = p.kind) (hdrive : q.drive = p.drive)
    (hmode : q.mode = .ignore ∨ q.mode = if isRead then .rdata else .wdata) : q.agreesWith cmd isRead dir pos len := by
  obtain ⟨hpos, hlen, htaking⟩ := takingCommand_of_commandReady h hc
  have hk : q.kind ≠ .absent := hkind ▸ ((commandReady_iff p).mp hc).2.2
  have hd : q.drive = false := hdrive.trans htaking.drive
  refine (agreesWith_transfer_iff hk (by omega) hlen).mpr (.inr ?_)
  cases isRead
  · exact .inr ⟨rfl, hmode.symm, hd⟩
  · exact .inl ⟨rfl, hk, hmode.symm, fun hc => absurd (hd.symm.trans hc) (by decide)⟩

/-! ### What an event does at each stage -/

/-- Nothing reaches a peripheral that is not there (R130). -/
theorem emit_periph_absent {s : State} (hk : s.periph.kind = .absent) (e : Event) : (emit e s).periph = s.periph := by
  have hfall : s.periph.fall = s.periph := by simp [Periph.fall, hk]
  have hrise : ∀ b, s.periph.rise b = s.periph := fun b => by simp [Periph.rise, hk]
  have hscramble : s.periph.scramble s.draws = s.periph := by simp [Periph.scramble, hk]
  have happly : (applyEvent e s).periph = s.periph := by
    cases e with
    | ce b => cases b <;> simp [applyEvent, Periph.enable, Periph.disable, hk]
    | clk b => simp [applyEvent, hfall, hrise]
    | _ => rfl
  have hdraws : (applyEvent e s).draws = s.draws := by cases e <;> rfl
  change (State.afterAbort (applyEvent e s)).periph = s.periph
  unfold State.afterAbort
  split
  · simp only [happly, hdraws, hscramble]
  · exact happly

/-- CE rises: the command byte is next (R215, R221). -/
theorem enable_takingCommand (hk : p.kind ≠ .absent) (hd : p.drive = false) : p.enable.TakingCommand cmd 0 := by
  obtain ⟨m, h⟩ := putAll_frame { p with txn := p.txn + 1 } timeCells _
  unfold Periph.enable
  split
  · rw [Periph.advanceClock, h]
    exact ⟨rfl, hd, rfl, nofun⟩
  · exact ⟨rfl, hd, rfl, nofun⟩
  · rename_i habsent
    exact absurd habsent hk

/-- CE falls: the peripheral is at rest (R214, R221). -/
theorem disable_atRest (hk : p.kind ≠ .absent) : p.disable.atRest := by
  unfold Periph.disable
  split
  · exact ⟨rfl, fun _ => rfl⟩
  · exact ⟨rfl, fun _ => rfl⟩
  · rename_i habsent
    exact absurd habsent hk

/-- Only CE events and rising edges reach a listening peripheral. -/
theorem emit_listening {s : State} {e : Event} (ha : s.aborted = false) (h : s.periph.Listening) (hce : ∀ b, e ≠ .ce b)
    (hrise : e ≠ .clk true) : (emit e s).periph = s.periph := by
  cases e with
  | clk b =>
    cases b
    · rw [emit_clk_periph ha, fall_listening h]
      simp
    · exact absurd rfl hrise
  | _ => exact emit_periph_quiet ha hce nofun

theorem takingCommand_listening {n : Nat} (h : p.TakingCommand cmd n) : p.Listening :=
  ⟨h.drive, by rw [h.mode]; decide⟩

/-- The rising edge of a bit of the command byte shifts it in (R213, R222). -/
theorem rise_takingCommand {n : Nat} (hk : p.kind ≠ .absent) (h : p.TakingCommand cmd n) (hn : n < 8) :
    (p.rise (cmd.getLsbD n)).TakingCommand cmd (n + 1) := by
  have hrise : p.rise (cmd.getLsbD n) = p.shiftIn (cmd.getLsbD n) := by
    by_cases h7 : n < 7
    · exact rise_shift hk (.inl h.mode) (by rw [h.nbits]; exact h7) _
    · exact rise_last_command hk h.mode (by rw [h.nbits]; omega) _
  rw [hrise]
  refine ⟨h.mode, h.drive, by rw [periph_shiftIn_nbits, h.nbits], fun i hi => ?_⟩
  rw [periph_shiftIn_shift, h.nbits, getLsbD_setBit _ hn]
  split
  · rename_i hin
    rw [hin]
  · exact h.bits i (by omega)

/-- A rising edge does nothing to a peripheral that sends (R213, R223). -/
theorem rise_sends (h : p.Sends dir) (level : Bool) : p.rise level = p := by
  rcases h.mode with hm | hm
  · exact rise_rdata hm level
  · cases hk : p.kind <;> simp [Periph.rise, hk, hm]

/-- A falling edge, the line being released, has it present a bit, or end its transfer (R214, R223). -/
theorem fall_sends (h : p.Sends .in) : p.fall.Sends .in := by
  obtain ⟨hk, hm, -⟩ := h
  have hcount : ∀ q : Periph, q.kind = p.kind → q.mode = .rdata → q.countOut.Sends .in := fun q hkind hmode => by
    rw [countOut_eq]
    refine ⟨by rw [← hkind] at hk; exact hk, ?_, fun _ => rfl⟩
    simp only [hmode]
    split
    · exact .inr rfl
    · exact .inl rfl
  unfold Periph.fall
  split
  · rename_i habsent
    exact absurd habsent hk
  · rename_i hrdata _
    split <;> exact hcount _ rfl hrdata
  · exact ⟨hk, hm, fun _ => rfl⟩
  all_goals exact ⟨hk, hm, fun _ => rfl⟩

/-- Only a DIR event moves the direction latch (R24). -/
theorem emit_dir_other {e : Event} (h : ∀ d, e ≠ .dir d) (s : State) : (emit e s).dir = s.dir := by
  rw [emit_dir]
  cases e with
  | dir d => exact absurd rfl (h d)
  | _ => rfl

/-- A peripheral that sends goes on so, if the line is released before the clock falls and not driven again (R103, R206). -/
theorem emit_sends {s : State} {e : Event} (ha : s.aborted = false) (h : s.periph.Sends s.dir) (hce : ∀ b, e ≠ .ce b)
    (hdir : e ≠ .dir .out) (hfall : e = .clk false → s.dir = .in) : (emit e s).periph.Sends (emit e s).dir := by
  have hquiet : (∀ b, e ≠ .clk b) → (∀ d, e ≠ .dir d) → (emit e s).periph.Sends (emit e s).dir := fun hclk hd => by
    rw [emit_periph_quiet ha hce hclk, emit_dir_other hd]
    exact h
  cases e with
  | ce b => exact absurd rfl (hce b)
  | clk b =>
    rw [emit_dir_other (e := .clk b) nofun, emit_clk_periph ha]
    split
    · rw [rise_sends h]
      exact h
    · split
      · rename_i hlow
        obtain rfl : b = false := by simpa using (Bool.and_eq_true_iff.mp hlow).1
        rw [hfall rfl] at h ⊢
        exact fall_sends h
      · exact h
  | dir d =>
    rw [emit_periph_quiet (e := .dir d) ha nofun nofun]
    refine ⟨h.present, h.mode, fun _ => ?_⟩
    cases d
    · exact absurd rfl hdir
    · exact emit_dir _ _
  | _ => exact hquiet nofun nofun

/-- A peripheral that receives goes on so until CE moves. -/
theorem emit_receives {s : State} {e : Event} (ha : s.aborted = false) (h : s.periph.Receives) (hce : ∀ b, e ≠ .ce b) :
    (emit e s).periph.Receives := by
  have hlistening : s.periph.Listening := ⟨h.drive, by rcases h.mode with hm | hm <;> rw [hm] <;> decide⟩
  by_cases hrise : e = .clk true
  · subst hrise
    rw [emit_clk_periph ha]
    split
    · obtain ⟨hd, -, hm⟩ := rise_keeps s.periph s.line
      refine ⟨?_, hd.trans h.drive⟩
      rcases hm with hm | hm <;> rw [hm]
      · exact h.mode
      · exact .inr rfl
    · split
      · rw [fall_listening hlistening]
        exact h
      · exact h
  · rw [emit_listening ha hlistening hce hrise]
    exact h

/-! ### An event of the transaction -/

/-- With no abort recorded, the engine stands before entry `e`, at `pos`, of a transaction: the latches are those the events before it
leave, the peripheral agrees with the transaction, and no command byte waits (log 1). -/
structure State.StandsBefore (s : State) (cmd : Byte) (isRead : Bool) (body : List Entry) (pos : Nat) (e : Entry) : Prop where
  data    : DataPhase isRead body
  aborted : s.aborted = false
  entry   : (transaction cmd isRead body)[pos]? = some e
  levels  : ∃ dout dir, s.levels =
    (Levels.mk false false dout dir).afterAll (eventsOf ((transaction cmd isRead body).take pos))
  noByte  : s.periph.commandReady = false
  agrees  : s.periph.agreesWith cmd isRead s.dir pos (transaction cmd isRead body).length

theorem transaction_long (cmd : Byte) (isRead : Bool) (body : List Entry) : 52 ≤ (transaction cmd isRead body).length := by
  rw [transaction_length]
  split <;> omega

variable {s : State} {body : List Entry} {e : Entry}

/-- `DIR(OUT)` leaves the peripheral at rest, and `CE(1)` has it wait for the command byte (R100). -/
theorem emit_agreesWith_start (h : s.StandsBefore cmd isRead body pos e) (hk : s.periph.kind ≠ .absent) (hpos : pos < 2) :
    (emit e.event s).periph.agreesWith cmd isRead (emit e.event s).dir (pos + 1) (transaction cmd isRead body).length := by
  obtain ⟨-, ha, he, -, -, hagrees⟩ := h
  have hlong := transaction_long cmd isRead body
  have hrest := (agreesWith_rest_iff hk (.inl hpos)).mp hagrees
  interval_cases pos <;> obtain rfl := Option.some.inj he
  · have hquiet : (emit (.dir .out) s).periph = s.periph := emit_periph_quiet ha nofun nofun
    exact agreesWith_of_atRest (hquiet ▸ hrest) (.inl (by decide))
  · have henable : (emit (.ce true) s).periph = s.periph.enable := emit_ce_periph ha true
    have htaking := enable_takingCommand (cmd := cmd) hk hrest.1
    exact agreesWith_of_takingCommand (henable ▸ htaking) (by decide) (by decide) (by omega)

/-- Each rising edge of the command byte shifts its next bit in, and nothing else does anything (R102, R213). -/
theorem emit_agreesWith_command (h : s.StandsBefore cmd isRead body pos e) (hk : s.periph.kind ≠ .absent) (h2 : 2 ≤ pos)
    (h48 : pos < 48) :
    (emit e.event s).periph.agreesWith cmd isRead (emit e.event s).dir (pos + 1) (transaction cmd isRead body).length := by
  obtain ⟨-, ha, he, ⟨dout, dir, hlevels⟩, -, hagrees⟩ := h
  have hlong := transaction_long cmd isRead body
  have htaking := (agreesWith_command_iff hk h2 h48 (by omega)).mp hagrees
  obtain ⟨hce, hrise⟩ := transaction_command h2 h48 he
  refine agreesWith_of_takingCommand ?_ (by omega) (by omega) (by omega)
  by_cases h5 : pos % 6 = 5
  · rw [transaction_rise h48 h5] at hlevels
    obtain ⟨-, hclk, hdout, hdir⟩ := Levels.mk.inj hlevels
    rw [hrise.mpr h5, emit_clk_periph ha, hclk, line_of_driven hdir htaking.drive, hdout,
      show (pos + 1) / 6 = pos / 6 + 1 by omega]
    exact rise_takingCommand hk htaking (by omega)
  · rw [emit_listening ha (takingCommand_listening htaking) hce fun hc => h5 (hrise.mp hc),
      show (pos + 1) / 6 = pos / 6 by omega]
    exact htaking

/-- With the command taken the peripheral sends or receives (R215, R216). -/
theorem emit_agreesWith_transfer (h : s.StandsBefore cmd isRead body pos e) (hk : s.periph.kind ≠ .absent) (h48 : 48 ≤ pos)
    (hlen : pos + 2 < (transaction cmd isRead body).length) :
    (emit e.event s).periph.agreesWith cmd isRead (emit e.event s).dir (pos + 1) (transaction cmd isRead body).length := by
  obtain ⟨hbody, ha, he, ⟨dout, dir, hlevels⟩, hready, hagrees⟩ := h
  obtain ⟨hce, hread⟩ := transaction_transfer hbody h48 hlen he
  rcases (agreesWith_transfer_iff hk h48 (by omega)).mp hagrees with ⟨-, htaking⟩ | ⟨rfl, hsends⟩ | ⟨rfl, hreceives⟩
  · rw [(commandReady_iff _).mpr ⟨htaking.mode, htaking.nbits, hk⟩] at hready
    cases hready
  · obtain ⟨hdir, hfall⟩ := hread rfl
    have hnext := emit_sends ha hsends hce hdir fun hc => (congrArg Levels.dir hlevels).trans (hfall hc dout dir)
    exact (agreesWith_transfer_iff hnext.present (by omega) hlen).mpr (.inr (.inl ⟨rfl, hnext⟩))
  · have hnext := emit_receives ha hreceives hce
    by_cases hk' : (emit e.event s).periph.kind = .absent
    · exact (agreesWith_absent_iff hk').mpr hnext.drive
    · exact (agreesWith_transfer_iff hk' (by omega) hlen).mpr (.inr (.inr ⟨rfl, hnext⟩))

/-- `CE(0)` puts it at rest, where the last wait leaves it (R101, R214). -/
theorem emit_agreesWith_stop (h : s.StandsBefore cmd isRead body pos e) (hk : s.periph.kind ≠ .absent)
    (hlen : (transaction cmd isRead body).length ≤ pos + 2) :
    (emit e.event s).periph.agreesWith cmd isRead (emit e.event s).dir (pos + 1) (transaction cmd isRead body).length := by
  obtain ⟨-, ha, he, -, -, hagrees⟩ := h
  have hlt := (List.getElem?_eq_some_iff.mp he).1
  obtain ⟨hlow, hwait⟩ := transaction_stop he
  refine agreesWith_of_atRest ?_ (.inr hlen)
  rcases Nat.lt_or_ge (pos + 1) (transaction cmd isRead body).length with hlast | hlast
  · rw [hlow (by omega), emit_ce_periph ha]
    exact disable_atRest hk
  · rw [hwait (by omega), emit_wait_periph ha]
    exact (agreesWith_rest_iff hk (.inr hlast)).mp hagrees

/-- Each event of a transaction takes the peripheral one stage on. -/
theorem emit_agreesWith (h : s.StandsBefore cmd isRead body pos e) :
    (emit e.event s).periph.agreesWith cmd isRead (emit e.event s).dir (pos + 1) (transaction cmd isRead body).length := by
  by_cases hk : s.periph.kind = .absent
  · rw [emit_periph_absent hk]
    exact (agreesWith_absent_iff hk).mpr ((agreesWith_absent_iff hk).mp h.agrees)
  rcases Nat.lt_or_ge pos 2 with h2 | h2
  · exact emit_agreesWith_start h hk h2
  rcases Nat.lt_or_ge pos 48 with h48 | h48
  · exact emit_agreesWith_command h hk h2 h48
  rcases Nat.lt_or_ge (pos + 2) (transaction cmd isRead body).length with hlen | hlen
  · exact emit_agreesWith_transfer h hk h48 hlen
  · exact emit_agreesWith_stop h hk hlen

end

end Sys2Proof.Machine


/-! PROOFS. Conformity is kept (40_primitives.md R108, R109; 60_exceptions.md R206, R224; 70_reset_and_hazards.md R247, R249): by the
entries of an operation, by its end, and by every other move. -/

namespace Sys2Proof.Machine

open Sys2Proof

/-! ### Registers and their values -/

theorem opInHand_congr {s t : State} (h : t.op = s.op) : t.opInHand = s.opInHand := by
  rw [State.opInHand, h, State.opInHand]

theorem cmdInHand_congr {s t : State} (h : t.cmd = s.cmd) : t.cmdInHand = s.cmdInHand := by
  rw [State.cmdInHand, h, State.cmdInHand]

/-- The trace is read from `op`, `cmd`, `tx` and, in an operation that writes, `buf` (R109). -/
theorem operationTrace_congr {s t : State} (hop : t.op = s.op) (hcmd : t.cmd = s.cmd) (htx : t.tx = s.tx)
    (hbuf : s.opInHand.isRead = false → t.buf = s.buf) : t.operationTrace = s.operationTrace := by
  unfold State.operationTrace
  rw [opInHand_congr hop, cmdInHand_congr hcmd, htx]
  cases h : s.opInHand <;> rw [h] at hbuf
  case burstWriteClock => simp only [hbuf rfl]
  case burstWriteRam => simp only [hbuf rfl]

/-- The operands go on holding values where `op`, `cmd` and `tx` stay and `buf` loses none. -/
theorem holdsOperands_mono {s t : State} (hop : t.op = s.op) (hcmd : t.cmd = s.cmd) (htx : t.tx = s.tx)
    (hbuf : ∀ k : Fin 31, (Cells.read s.buf k.val).isSome = true → (Cells.read t.buf k.val).isSome = true)
    (h : s.holdsOperands = true) : t.holdsOperands = true := by
  have hrange : ∀ n, holdsRange s.buf (burstIndices n) = true → holdsRange t.buf (burstIndices n) = true := fun n hn =>
    holdsRange_iff.mpr fun k hk => hbuf k (holdsRange_iff.mp hn k hk)
  unfold State.holdsOperands at h ⊢
  rw [hop, hcmd, htx]
  split at h
  case h_6 => exact Bool.and_eq_true_iff.mpr ((Bool.and_eq_true_iff.mp h).imp_right (hrange _))
  case h_7 => exact Bool.and_eq_true_iff.mpr ((Bool.and_eq_true_iff.mp h).imp_right (hrange _))
  all_goals exact h

/-- A delivery takes no value from `buf`. -/
theorem deliver_buf_isSome (d : Dest) (s : State) {k : Nat} (h : (Cells.read s.buf k).isSome = true) :
    (Cells.read (deliver d s).buf k).isSome = true := by
  cases d with
  | buf j =>
    rw [deliver_buf_same, cells_read_write]
    split
    · rfl
    · exact h
  | _ => exact h

/-! ### An entry of the trace -/

/-- An entry's event, and then what the entry sets and where its byte goes. -/
theorem performEntry_eq_emit (e : Entry) (s : State) :
    performEntry e s = (deliver e.dest (e.mark (emit e.event s))).advance := by
  rw [performEntry, emit_mark]

@[simp] theorem performEntry_params (e : Entry) (s : State) : (performEntry e s).params = s.params := by simp [performEntry]
@[simp] theorem performEntry_phase (e : Entry) (s : State) : (performEntry e s).phase = e.phase := by simp [performEntry]
@[simp] theorem performEntry_pos (e : Entry) (s : State) : (performEntry e s).pos = s.pos + 1 := by simp [performEntry]
@[simp] theorem performEntry_initPending (e : Entry) (s : State) : (performEntry e s).initPending = s.initPending := by
  simp [performEntry]
@[simp] theorem performEntry_op (e : Entry) (s : State) : (performEntry e s).op = s.op := by simp [performEntry]
@[simp] theorem performEntry_cmd (e : Entry) (s : State) : (performEntry e s).cmd = s.cmd := by simp [performEntry]
@[simp] theorem performEntry_tx (e : Entry) (s : State) : (performEntry e s).tx = s.tx := by simp [performEntry]
@[simp] theorem performEntry_aborted (e : Entry) (s : State) : (performEntry e s).aborted = s.aborted := by simp [performEntry]
@[simp] theorem performEntry_trace (e : Entry) (s : State) : (performEntry e s).trace = e.event :: s.trace := by
  simp [performEntry]
@[simp] theorem performEntry_script (e : Entry) (s : State) : (performEntry e s).script = s.script := by simp [performEntry]
@[simp] theorem performEntry_levels (e : Entry) (s : State) : (performEntry e s).levels = s.levels.after e.event := by
  simp [performEntry]
@[simp] theorem performEntry_rx (e : Entry) (s : State) : (performEntry e s).rx = (emit e.event s).rx := by
  simp [performEntry_eq_emit]
@[simp] theorem performEntry_dir (e : Entry) (s : State) : (performEntry e s).dir = (emit e.event s).dir := by
  rw [performEntry_eq_emit, advance_dir, deliver_dir, mark_dir]
@[simp] theorem performEntry_contention (e : Entry) (s : State) : (performEntry e s).contention = (emit e.event s).contention := by
  simp [performEntry_eq_emit]
@[simp] theorem performEntry_periph (e : Entry) (s : State) : (performEntry e s).periph = (emit e.event s).periph := by
  simp [performEntry_eq_emit]

/-- `buf` loses no value, and gains the byte that the entry delivers to it (R140, R142). -/
theorem performEntry_buf_isSome {e : Entry} {s : State} {k : Fin 31}
    (h : e.dest = .buf k ∨ (Cells.read s.buf k.val).isSome = true) :
    (Cells.read (performEntry e s).buf k.val).isSome = true := by
  rw [performEntry_eq_emit, advance_buf]
  rcases h with h | h
  · rw [h, deliver_buf_same, cells_read_write_same]
    rfl
  · exact deliver_buf_isSome _ _ (by simpa using h)

/-- CONTENTION is recorded where the event leaves both sides driving (R206). -/
theorem emit_contention_eq (e : Event) (s : State) :
    (emit e s).contention = (s.contention || ((emit e s).dir == .out && (emit e s).periph.drive)) := by
  have hframe : (applyEvent e s).contention = s.contention := by cases e <;> rfl
  rw [← hframe]
  cases ha : (applyEvent e s).aborted <;> simp only [emit, State.afterAbort, ha] <;> rfl

/-- The entry's step keeps the engine in agreement with its trace, and reads no bit of `rx` without value (R106, R109). -/
theorem performEntry_agreesWith {s : State} {t : List Entry} {e : Entry} (h : s.agreesWith t) (hwhole : DeliversWholeBytes t)
    (he : t[s.pos]? = some e) :
    (performEntry e s).agreesWith t ∧ (performEntry e s).noValueRead = s.noValueRead := by
  obtain ⟨-, ⟨dout, dir, hlevels⟩, -, hsamples, hbytes⟩ := h
  have hlt := (List.getElem?_eq_some_iff.mp he).1
  have htake : t.take (s.pos + 1) = t.take s.pos ++ [e] := by rw [List.take_add_one, he]; rfl
  have hrx : ∀ k : Fin 8, Event.sample k ∈ eventsOf (t.take (s.pos + 1)) →
      (Cells.read (emit e.event s).rx k.val).isSome = true := fun k hk => by
    rw [htake, eventsOf_append, List.mem_append] at hk
    rcases hk with hk | hk
    · exact emit_rx_isSome e.event (hsamples k hk)
    · have hevent : Event.sample k = e.event := List.mem_singleton.mp hk
      rw [← hevent, emit_sample_rx, cells_read_write_same]
      rfl
  refine ⟨⟨?_, ⟨dout, dir, ?_⟩, ?_, ?_, ?_⟩, ?_⟩
  · simpa using hlt
  · rw [performEntry_levels, performEntry_pos, hlevels, htake, eventsOf_append, afterAll_append]
    rfl
  · simp [htake]
  · simpa using hrx
  · intro e' he' k hk
    rw [performEntry_pos, htake, List.mem_append, List.mem_singleton] at he'
    rcases he' with he' | rfl
    · exact performEntry_buf_isSome (.inr (hbytes e' he' k hk))
    · exact performEntry_buf_isSome (.inl hk)
  · rw [performEntry_eq_emit, advance_noValueRead, deliver_noValueRead]
    by_cases hdest : e.dest = .nowhere
    · simp [hdest]
    · have hsome : (assemble (emit e.event s).rx).isSome = true :=
        assemble_isSome fun k => hrx k (hwhole s.pos e he hdest k)
      simp [Option.isSome_iff_ne_none.mp hsome]

/-! ### Conformity in its parts -/

/-- The engine's part of `Conforming` in an operation. -/
def State.EngineConforms (s : State) : Prop :=
  ∃ op cmd, s.op = some op ∧ s.cmd = some cmd ∧ s.holdsOperands = true ∧
    (∃ i, decodeCommand s.params.regMap cmd = .ok i) ∧ cmd.getLsbD 0 = op.isRead ∧ s.agreesWith s.operationTrace

/-- The peripheral's part in an operation. -/
def State.PeriphConforms (s : State) : Prop :=
  s.periph.agreesWith s.cmdInHand s.opInHand.isRead s.dir s.pos s.operationTrace.length

theorem conforming_of_idle {s : State} (hread : s.noValueRead = false) (hmap : s.params.regMap.wf = true)
    (hphase : s.phase = .idle) (hce : s.ce = false) (hclk : s.clk = false)
    (hlines : s.aborted = false → s.contention = false ∧ s.periph.atRest) : s.Conforming :=
  ⟨hread, hmap, fun _ => ⟨hce, hclk⟩, fun h => absurd hphase h,
    fun ha => ⟨(hlines ha).1, fun _ => (hlines ha).2, fun h => absurd hphase h⟩⟩

theorem conforming_of_busy {s : State} (hread : s.noValueRead = false) (hmap : s.params.regMap.wf = true)
    (hphase : s.phase ≠ .idle) (hengine : s.EngineConforms)
    (hlines : s.aborted = false → s.contention = false ∧ s.PeriphConforms) : s.Conforming :=
  ⟨hread, hmap, fun h => absurd h hphase, fun _ => hengine,
    fun ha => ⟨(hlines ha).1, fun h => absurd h hphase, fun _ => (hlines ha).2⟩⟩

/-- Between operations CE and the clock are low and the peripheral is at rest. -/
theorem idle_of_conforming {s : State} (h : s.Conforming) (hphase : s.phase = .idle) :
    s.ce = false ∧ s.clk = false ∧ (s.aborted = false → s.contention = false ∧ s.periph.atRest) := by
  obtain ⟨-, -, hidle, -, hlines⟩ := h
  obtain ⟨hce, hclk⟩ := hidle hphase
  exact ⟨hce, hclk, fun ha => have ⟨hcont, hrest, _⟩ := hlines ha; ⟨hcont, hrest hphase⟩⟩

theorem busy_of_conforming {s : State} (h : s.Conforming) (hphase : s.phase ≠ .idle) :
    s.EngineConforms ∧ (s.aborted = false → s.contention = false ∧ s.PeriphConforms) := by
  obtain ⟨-, -, -, hbusy, hlines⟩ := h
  exact ⟨hbusy hphase, fun ha => have ⟨hcont, _, hagrees⟩ := hlines ha; ⟨hcont, hagrees hphase⟩⟩

/-- The host's turn touches nothing conformity speaks of. -/
theorem hostTurn_conforming {s : State} (h : s.Conforming) (taken : Bool) : (hostTurn taken s).Conforming := by
  obtain ⟨_, _, _, _, ht⟩ := hostTurn_engine taken s
  rw [ht]
  exact h

/-! ### Reset, and the taking of a command byte -/

theorem takeReset_conforming {s : State} (h : s.Conforming) : s.takeReset.Conforming := by
  obtain ⟨hread, hmap, -⟩ := id h
  refine conforming_of_idle hread hmap rfl rfl rfl fun ha => ?_
  obtain ⟨ha', hp⟩ := Bool.or_eq_false_iff.mp ha
  have hphase : s.phase = .idle := by simpa using hp
  obtain ⟨hce, -, hlines⟩ := idle_of_conforming h hphase
  obtain ⟨hcont, hrest⟩ := hlines ha'
  refine ⟨hcont, ?_⟩
  rw [takeReset_periph, hce, hphase]
  exact hrest

/-- A peripheral that takes the byte that waits in it, or ignores it, conforms. -/
theorem taken_conforming {s : State} (h : s.Conforming) (hc : s.periph.commandReady = true) {q : Periph}
    (hkind : q.kind = s.periph.kind) (hdrive : q.drive = s.periph.drive)
    (hmode : q.mode = .ignore ∨ q.mode = if s.periph.shift.getLsbD 0 then .rdata else .wdata) :
    State.Conforming { s with periph := q } := by
  obtain ⟨hread, hmap, -⟩ := id h
  by_cases hphase : s.phase = .idle
  · obtain ⟨hce, hclk, hlines⟩ := idle_of_conforming h hphase
    refine conforming_of_idle hread hmap hphase hce hclk fun ha => ?_
    rw [commandReady_of_atRest (hlines ha).2] at hc
    cases hc
  · obtain ⟨hengine, hlines⟩ := busy_of_conforming h hphase
    refine conforming_of_busy hread hmap hphase hengine fun ha => ?_
    obtain ⟨hcont, hagrees⟩ := hlines ha
    obtain ⟨op, cmd, hop, hcmd, -, -, hflag, -⟩ := hengine
    have hshift : s.periph.shift.getLsbD 0 = s.opInHand.isRead := by
      rw [shift_of_agreesWith hagrees hc, opInHand_of_op hop, State.cmdInHand, hcmd, valueOr_some, hflag]
    exact ⟨hcont, agreesWith_taken hagrees hc hkind hdrive (hshift ▸ hmode)⟩

/-- A command byte that decodes is a command in the direction its bit 0 says (R83). -/
theorem exec_of_decodes {m : RegMap} {c : Byte} {i : Instr} (h : decodeCommand m c = .ok i) :
    ∃ rc index, ∀ s, exec i s = takeCommand rc index (c.getLsbD 0) s := by
  obtain ⟨r, hr, -, rfl⟩ := decodeCommand_eq_ok h
  generalize c.getLsbD 0 = read
  rcases mem_commandTable.mp hr with hr | hr | hr
  · simp only [clockRows, List.mem_cons, List.not_mem_nil, or_false] at hr
    rcases hr with rfl | rfl | rfl | rfl | rfl | rfl | rfl | rfl | rfl <;> cases read <;> exact ⟨_, _, fun _ => rfl⟩
  · obtain ⟨n, -, rfl⟩ := List.mem_map.mp hr
    cases read <;> exact ⟨_, _, fun _ => rfl⟩
  · simp only [burstRows, List.mem_cons, List.not_mem_nil, or_false] at hr
    rcases hr with rfl | rfl <;> cases read <;> exact ⟨_, _, fun _ => rfl⟩

theorem command_conforming {s u : State} {i : Instr} (h : s.Conforming) (hc : s.periph.commandReady = true)
    (hd : decodeCommand s.commandMap s.periph.shift = .ok i) (hu : exec i s = .next u) : u.Conforming := by
  obtain ⟨rc, index, hexec⟩ := exec_of_decodes hd
  rw [hexec] at hu
  rcases takeCommand_cases rc index (s.periph.shift.getLsbD 0) s with ⟨-, ht⟩ | ⟨-, ht⟩ <;>
    obtain rfl := Host.Outcome.next.inj (ht.symm.trans hu)
  · exact h
  · exact taken_conforming h hc rfl rfl (.inr rfl)

theorem badCommand_conforming {s u : State} (h : s.Conforming) (hc : s.periph.commandReady = true)
    (hu : s.badCommand = .next u) : u.Conforming := by
  rcases badCommand_next hu with rfl | rfl
  · exact h
  · exact taken_conforming h hc rfl rfl (.inl rfl)

/-! ### The start of an operation -/

/-- The operands an operation may begin with: a command byte of the map in the operation's direction, and the bytes it writes. -/
structure State.Startable (s : State) (op : HostOp) (cmd tx : Byte) (buf : Memory) : Prop where
  decodes : ∃ i, decodeCommand s.params.regMap cmd = .ok i
  flag    : cmd.getLsbD 0 = op.isRead
  held    : (s.beginOp op cmd tx buf).holdsOperands = true

theorem beginOp_conforming {s : State} (h : s.Conforming) (hphase : s.phase = .idle) {op : HostOp} {cmd tx : Byte} {buf : Memory}
    (hstart : s.Startable op cmd tx buf) : (s.beginOp op cmd tx buf).Conforming := by
  obtain ⟨hread, hmap, -⟩ := id h
  obtain ⟨hce, hclk, hlines⟩ := idle_of_conforming h hphase
  refine conforming_of_busy hread hmap (by simp) ⟨op, cmd, rfl, rfl, hstart.held, hstart.decodes, hstart.flag, ?_⟩ fun ha => ?_
  · refine ⟨Nat.zero_le _, ⟨s.dout, s.dir, ?_⟩, rfl, fun _ hk => absurd hk List.not_mem_nil,
      fun _ he => absurd he List.not_mem_nil⟩
    simp only [State.levels, beginOp_ce, beginOp_clk, beginOp_dout, beginOp_dir, hce, hclk]
    rfl
  · obtain ⟨hcont, hrest⟩ := hlines ha
    exact ⟨hcont, agreesWith_of_atRest hrest (.inl (by simp))⟩

/-- The command bytes of READ and WRITE are those of the operand without bit 0 (R84, R85). -/
theorem commands_without_bitZero (addr : Byte) :
    readCommand addr &&& 0xFE = addr &&& 0xFE ∧ writeCommand addr &&& 0xFE = addr &&& 0xFE := by
  revert addr
  decide

/-- Both command bytes of a valid operand decode (R87, R88). -/
theorem commands_decode {m : RegMap} {addr : Byte} (h : validAddr m addr = true) :
    (∃ i, decodeCommand m (readCommand addr) = .ok i) ∧ ∃ i, decodeCommand m (writeCommand addr) = .ok i := by
  obtain ⟨hr, hw⟩ := commands_without_bitZero addr
  rw [← validAddr_iff_decodes, ← validAddr_iff_decodes, validAddr, validAddr, hr, hw]
  exact ⟨h, h⟩

/-- Each name of a map that meets `RegMap.wf` is a valid operand (R34, R87). -/
theorem validAddr_of_mem {m : RegMap} (hm : m.wf = true) {c : Byte} (hc : c ∈ m.writeForms) : validAddr m c = true := by
  simp only [RegMap.wf, Bool.and_eq_true, List.all_eq_true] at hm
  obtain ⟨⟨⟨-, hbits⟩, -⟩, -⟩ := hm
  have heven : c.getLsbD 0 = false := by simpa using (hbits c hc).2
  obtain ⟨hform, -⟩ := forms_of_even heven false
  rw [validAddr_iff_mem, show c &&& 0xFE = c from hform]
  exact hc

theorem readCommand_flag (addr : Byte) : (readCommand addr).getLsbD 0 = true := by
  rw [getLsbD_readCommand, decide_eq_true rfl, Bool.or_true]

theorem writeCommand_flag (addr : Byte) : (writeCommand addr).getLsbD 0 = false := by
  rw [getLsbD_writeCommand, decide_eq_true rfl, Bool.not_true, Bool.and_false]

theorem startable_read {s : State} {addr : Byte} (h : validAddr s.params.regMap addr = true) {op : HostOp}
    (hop : op.isRead = true) (tx : Byte) (buf : Memory) : s.Startable op (readCommand addr) tx buf where
  decodes := (commands_decode h).1
  flag    := (readCommand_flag addr).trans hop.symm
  held    := by
    cases op with
    | read => rfl
    | burstReadClock => rfl
    | burstReadRam => rfl
    | _ => cases hop

theorem startable_write {s : State} {addr : Byte} (h : validAddr s.params.regMap addr = true) {op : HostOp}
    (hop : op.isRead = false) {tx : Byte} {buf : Memory} (hheld : (s.beginOp op (writeCommand addr) tx buf).holdsOperands = true) :
    s.Startable op (writeCommand addr) tx buf where
  decodes := (commands_decode h).2
  flag    := (writeCommand_flag addr).trans hop.symm
  held    := hheld

/-- A payload of the burst's length fills the burst's bytes (R25, R67). -/
theorem holdsRange_payload {n : Nat} (hn : n ≤ 31) {payload : List Byte} (h : payload.length = n) :
    holdsRange (payloadCells n payload) (burstIndices n) = true :=
  holdsRange_iff.mpr fun k hk => by
    rw [read_payloadCells hn h, List.getElem?_eq_getElem (h ▸ mem_burstIndices.mp hk)]
    rfl

/-- An answer to a request is a rejection, or begins an operation with operands it may begin with. -/
def State.Answers (s : State) (o : Outcome) : Prop :=
  (∃ st, o = .next (s.reject st)) ∨ ∃ op cmd tx buf, o = .next (s.accept op cmd tx buf) ∧ s.Startable op cmd tx buf

theorem answers_reject {s : State} (hr : s.reqReady = true) (st : Status) : s.Answers (onRequest s (s.reject st)) :=
  .inl ⟨st, onRequest_ready hr _⟩

theorem answers_accept {s : State} (hr : s.reqReady = true) {op : HostOp} {cmd tx : Byte} {buf : Memory}
    (h : s.Startable op cmd tx buf) : s.Answers (onRequest s (s.accept op cmd tx buf)) :=
  .inr ⟨op, cmd, tx, buf, onRequest_ready hr _, h⟩

theorem answers_acceptAt {s : State} (hr : s.reqReady = true) {addr : Byte} {op : HostOp} {cmd tx : Byte}
    (h : validAddr s.params.regMap addr = true → s.Startable op cmd tx []) :
    s.Answers (onRequest s (s.acceptAt addr op cmd tx)) := by
  rcases acceptAt_cases s addr op cmd tx with ⟨hv, ha⟩ | ⟨-, ha⟩ <;> rw [ha]
  · exact answers_accept hr (h hv)
  · exact answers_reject hr _

theorem answers_acceptRamBurst {s : State} (hr : s.reqReady = true) {op : HostOp} {cmd tx : Byte} {buf : Memory}
    (h : s.Startable op cmd tx buf) : s.Answers (onRequest s (s.acceptRamBurst op cmd tx buf)) := by
  rcases acceptRamBurst_cases s op cmd tx buf with ⟨-, ha⟩ | ⟨-, ha⟩ <;> rw [ha]
  · exact answers_accept hr h
  · exact answers_reject hr _

/-- The request on the port of a ready engine is so answered, whatever its code (R25, R87, R91). -/
theorem exec_portInstr {s : State} (hr : s.reqReady = true) (hm : s.params.regMap.wf = true) :
    s.Answers (exec s.port.instr s) := by
  have hclock : validAddr s.params.regMap s.params.regMap.clockBurst = true :=
    validAddr_of_mem hm (by simp [RegMap.writeForms])
  have hram : validAddr s.params.regMap s.params.regMap.ramBurst = true := validAddr_of_mem hm (by simp [RegMap.writeForms])
  have hpayload : ∀ n, (s.port.payload n).length = n := fun n => by simp [Port.payload]
  rw [Port.instr]
  generalize s.port.request.op = op
  rcases op_cases op with rfl | rfl | rfl | rfl | rfl | rfl | rfl | rfl
  · exact answers_acceptAt hr fun hv => startable_read hv rfl _ _
  · exact answers_acceptAt hr fun hv => startable_write hv rfl rfl
  · exact answers_accept hr (startable_read hclock rfl _ _)
  · exact answers_accept hr (startable_write hclock rfl (holdsRange_payload (by decide) (hpayload 8)))
  · exact answers_acceptRamBurst hr (startable_read hram rfl _ _)
  · exact answers_acceptRamBurst hr (startable_write hram rfl (holdsRange_payload (by decide) (hpayload 31)))
  · exact answers_reject hr _
  · exact answers_reject hr _

theorem request_conforming {s u : State} (h : s.Conforming) (hr : s.reqReady = true) (hu : exec s.port.instr s = .next u) :
    u.Conforming := by
  obtain ⟨hread, hmap, -⟩ := id h
  have hphase := ((reqReady_iff s).mp hr).1
  rcases exec_portInstr hr hmap with ⟨st, hx⟩ | ⟨op, cmd, tx, buf, hx, hstart⟩ <;>
    obtain rfl := Host.Outcome.next.inj (hx.symm.trans hu)
  · obtain ⟨hce, hclk, hlines⟩ := idle_of_conforming h hphase
    exact conforming_of_idle hread hmap hphase hce hclk hlines
  · exact beginOp_conforming h hphase hstart

theorem beginInit_conforming {s : State} (h : s.Conforming) (hphase : s.phase = .idle) : s.beginInit.Conforming := by
  obtain ⟨-, hmap, -⟩ := id h
  rw [beginInit_eq]
  refine beginOp_conforming h hphase (startable_write (validAddr_of_mem hmap ?_) rfl rfl)
  cases s.initSecond <;> simp [RegMap.writeForms, RegMap.registers]

/-! ### The sequencer -/

/-- The peripheral of a conforming machine that performs an entry goes on to agree with the transaction, so no contention is recorded. -/
theorem performEntry_periphConforms {s : State} {e : Entry} (ha : s.aborted = false) (hengine : s.agreesWith s.operationTrace)
    (hlines : s.contention = false ∧ s.PeriphConforms) (hc : s.periph.commandReady = false)
    (he : s.operationTrace[s.pos]? = some e) :
    (emit e.event s).contention = false ∧
      (emit e.event s).periph.agreesWith s.cmdInHand s.opInHand.isRead (emit e.event s).dir (s.pos + 1)
        s.operationTrace.length := by
  obtain ⟨hcont, hagrees⟩ := hlines
  obtain ⟨-, hlevels, -⟩ := hengine
  rw [State.PeriphConforms] at hagrees
  rw [operationTrace_eq] at he hlevels hagrees ⊢
  have hnext := emit_agreesWith ⟨dataPhase_operationBody s, ha, he, hlevels, hc, hagrees⟩
  refine ⟨?_, hnext⟩
  rw [emit_contention_eq, hcont, Bool.false_or, Bool.and_eq_false_iff]
  by_cases hd : (emit e.event s).periph.drive = true
  · rw [dir_of_agreesWith hnext hd]
    exact .inl rfl
  · exact .inr (by simpa using hd)

/-- An entry leaves the trace it is of: only a read delivers to `buf`, and its trace does not depend on `buf`. -/
theorem performEntry_operationTrace {s : State} {e : Entry} (he : s.operationTrace[s.pos]? = some e) :
    (performEntry e s).operationTrace = s.operationTrace := by
  refine operationTrace_congr (by simp) (by simp) (by simp) fun hwrites => ?_
  rw [performEntry_eq_emit, operationTrace_nowhere hwrites e (List.mem_of_getElem? he)]
  simp [deliver]

theorem performEntry_conforming {s : State} {e : Entry} (h : s.Conforming) (hphase : s.phase ≠ .idle)
    (hc : s.periph.commandReady = false) (he : s.operationTrace[s.pos]? = some e) : (performEntry e s).Conforming := by
  obtain ⟨hread, hmap, -⟩ := id h
  obtain ⟨⟨op, cmd, hop, hcmd, hheld, hdecodes, hflag, hagrees⟩, hlines⟩ := busy_of_conforming h hphase
  have hmem := List.mem_of_getElem? he
  have hwhole : DeliversWholeBytes s.operationTrace := by
    rw [operationTrace_eq]
    exact transaction_whole (dataPhase_operationBody s)
  have hbusy : e.phase ≠ .idle := transaction_phase (dataPhase_operationBody s) e (operationTrace_eq s ▸ hmem)
  have htrace := performEntry_operationTrace he
  obtain ⟨hnext, hvalue⟩ := performEntry_agreesWith hagrees hwhole he
  have hheld' : (performEntry e s).holdsOperands = true :=
    holdsOperands_mono (by simp) (by simp) (by simp) (fun k hk => performEntry_buf_isSome (.inr hk)) hheld
  refine conforming_of_busy (hvalue.trans hread) (by simpa using hmap) (by simpa using hbusy)
    ⟨op, cmd, by simpa using hop, by simpa using hcmd, hheld', by simpa using hdecodes, hflag, htrace ▸ hnext⟩ fun ha => ?_
  rw [performEntry_aborted] at ha
  rw [performEntry_contention, State.PeriphConforms, htrace, opInHand_congr (performEntry_op e s),
    cmdInHand_congr (performEntry_cmd e s), performEntry_periph, performEntry_dir, performEntry_pos]
  exact performEntry_periphConforms ha hagrees (hlines ha) hc he

/-- When every entry has been performed, every byte the operation gives the host has been received (R140, R142). -/
theorem received_of_agreesWith {s : State} (h : s.agreesWith s.operationTrace) (hend : s.operationTrace.length ≤ s.pos) :
    ∀ k : Fin 31, k.val < s.opInHand.burstBytes → (Cells.read s.buf k.val).isSome = true := by
  obtain ⟨-, -, -, -, hbytes⟩ := h
  intro k hk
  obtain ⟨e, he, hdest⟩ := operationTrace_delivers hk
  exact hbytes e (by rwa [List.take_of_length_le hend]) k hdest

/-- What the end of an operation does in a conforming machine: it ends an init write, or gives the host its response (R108, R161). -/
theorem complete_cases_of_agreesWith {s : State} (h : s.agreesWith s.operationTrace)
    (hend : s.operationTrace.length ≤ s.pos) :
    (s.initPending = true ∧ s.complete = s.finishInit) ∨
    (s.initPending = false ∧ ∃ rbuf, s.complete = s.respond rbuf) := by
  cases hi : s.initPending
  · obtain ⟨rbuf, hc, -⟩ := complete_eq_respond hi (received_of_agreesWith h hend)
    exact .inr ⟨rfl, rbuf, hc⟩
  · exact .inl ⟨rfl, by rw [State.complete, hi, if_pos rfl]⟩

theorem complete_conforming {s : State} (h : s.Conforming) (hphase : s.phase ≠ .idle)
    (hend : s.operationTrace.length ≤ s.pos) : s.complete.Conforming := by
  obtain ⟨hread, hmap, -⟩ := id h
  obtain ⟨⟨_, _, -, -, -, -, -, hagrees⟩, hlines⟩ := busy_of_conforming h hphase
  obtain ⟨-, ⟨dout, dir, hlevels⟩, -⟩ := id hagrees
  rw [List.take_of_length_le hend, operationTrace_eq] at hlevels
  obtain ⟨hce, hclk⟩ := transaction_afterAll (dataPhase_operationBody s) dout dir
  rw [← hlevels] at hce hclk
  have hrest : s.aborted = false → s.contention = false ∧ s.periph.atRest := fun ha => by
    obtain ⟨hcont, hperiph⟩ := hlines ha
    refine ⟨hcont, ?_⟩
    by_cases hk : s.periph.kind = .absent
    · exact ⟨(agreesWith_absent_iff hk).mp hperiph, fun hc => absurd hk hc⟩
    · exact (agreesWith_rest_iff hk (.inr (Nat.le_succ_of_le hend))).mp hperiph
  rcases complete_cases_of_agreesWith hagrees hend with ⟨-, hc⟩ | ⟨-, rbuf, hc⟩ <;> rw [hc]
  · exact conforming_of_idle hread hmap rfl hce hclk hrest
  · exact conforming_of_idle hread hmap rfl hce hclk hrest

theorem holdsOperands_of_conforming {s : State} (h : s.Conforming) (hphase : s.phase ≠ .idle) : s.holdsOperands = true := by
  obtain ⟨⟨_, _, -, -, hheld, -⟩, -⟩ := busy_of_conforming h hphase
  exact hheld

theorem tick_conforming {s : State} (h : s.Conforming) (n : Nat) : (s.tick n).Conforming := h

theorem sequencerStep_conforming {s : State} (h : s.Conforming) (hphase : s.phase ≠ .idle)
    (hc : s.periph.commandReady = false) : (sequencerStep s).Conforming := by
  have hheld : s.noteRead s.holdsOperands = s := by rw [holdsOperands_of_conforming h hphase, noteRead_true]
  rcases sequencerStep_cases s with ⟨n, -, hs⟩ | ⟨-, ⟨e, he, hs⟩ | ⟨hend, hs⟩⟩ <;> rw [hs]
  · exact tick_conforming h n
  · rw [hheld]
    exact performEntry_conforming h hphase hc he
  · rw [hheld]
    exact complete_conforming h hphase (List.getElem?_eq_none_iff.mp hend)

end Sys2Proof.Machine

namespace Sys2Proof.Proofs

open Sys2Proof Sys2Proof.Machine

/-- Settles O53: each move of a conforming machine leaves it conforming, and the host's turn touches nothing conformity speaks of. -/
theorem stepKeepsConforming : Obligations.StepKeepsConforming := by
  intro s t h hstep
  have hturn := turn_cases s
  rcases step_cases hstep with ⟨ht, rfl⟩ | ⟨i, u, ht, hu, rfl⟩ | ⟨u, ht, hu, rfl⟩ | ⟨ht, rfl⟩ | ⟨ht, rfl⟩ |
      ⟨i, u, ht, hu, rfl⟩ | ⟨ht, rfl⟩ <;>
    apply hostTurn_conforming <;> simp [ht] at hturn
  case inl => exact takeReset_conforming h
  case inr.inl =>
    obtain ⟨-, -, hc, hd⟩ := hturn
    exact command_conforming h hc hd hu
  case inr.inr.inl =>
    obtain ⟨-, -, hc, -⟩ := hturn
    exact badCommand_conforming h hc hu
  case inr.inr.inr.inl =>
    obtain ⟨-, hc, hphase⟩ := hturn
    exact sequencerStep_conforming h hphase hc
  case inr.inr.inr.inr.inl =>
    obtain ⟨-, -, hphase, -⟩ := hturn
    exact beginInit_conforming h hphase
  case inr.inr.inr.inr.inr.inl =>
    obtain ⟨rfl, -, hr, -⟩ := hturn
    exact request_conforming h hr hu
  case inr.inr.inr.inr.inr.inr => exact h

end Sys2Proof.Proofs


/-! PROOFS. An operation runs its whole trace (40_primitives.md R108, R109, R111): each step counts a wait down, has the command byte taken,
performs the next event, or ends the operation. -/

namespace Sys2Proof.Machine

open Sys2Proof

/-! ### The host that does not reset -/

/-- A host with no reset to come makes none in its turn (R225, R250). -/
theorem hostTurn_noResetToCome {u : State} (h : ∀ m ∈ u.script, ∀ cfg, m ≠ HostMove.reset cfg) (taken : Bool) :
    (hostTurn taken u).noResetToCome := by
  unfold hostTurn
  split
  · exact ⟨rfl, h⟩
  · split <;> rename_i hscript <;> rw [hscript] at h
    · exact ⟨rfl, by rw [hscript]; exact h⟩
    · exact ⟨rfl, fun m hm => h m (List.mem_cons_of_mem _ hm)⟩
    · exact ⟨rfl, fun m hm => h m (List.mem_cons_of_mem _ hm)⟩
    · exact ⟨rfl, fun m hm => h m (List.mem_cons_of_mem _ hm)⟩
    · rename_i cfg _
      exact absurd rfl (h _ List.mem_cons_self cfg)

/-! ### What a step does in an operation -/

/-- The steps to come before the next event: the ticks of the wait, and the taking of a command byte (log 1). -/
def State.pause (s : State) : Nat := s.waitCtr.getD 0 + if s.periph.commandReady then 1 else 0

/-- `u` is in the same operation as `s`. -/
structure State.SameOperation (s u : State) : Prop where
  busy        : u.phase ≠ .idle
  trace       : u.operationTrace = s.operationTrace
  initPending : u.initPending = s.initPending

/-- What a step does to an operation in hand. -/
inductive State.OperationStep (s u : State) : Prop
  | pause (same : s.SameOperation u) (pos : u.pos = s.pos) (trace : u.trace = s.trace) (less : u.pause < s.pause)
  | event (same : s.SameOperation u) (e : Entry) (entry : s.operationTrace[s.pos]? = some e) (pos : u.pos = s.pos + 1)
      (trace : u.trace = e.event :: s.trace)
  | finish (done : s.operationTrace.length ≤ s.pos) (idle : u.phase = .idle) (trace : u.trace = s.trace)
      (response : s.initPending = false → u.rspValid = true ∧ u.rspStatus = some .ok)

/-- A peripheral that has taken the byte that waited in it is one step nearer to the next event. -/
theorem operationStep_taken {s : State} (hphase : s.phase ≠ .idle) (hc : s.periph.commandReady = true) {q : Periph}
    (hq : q.commandReady = false) : s.OperationStep { s with periph := q } :=
  .pause ⟨hphase, rfl, rfl⟩ rfl rfl (by simp [State.pause, hc, hq])

theorem operationStep_sequencer {s : State} (h : s.Conforming) (hphase : s.phase ≠ .idle)
    (hc : s.periph.commandReady = false) : s.OperationStep (sequencerStep s) := by
  have hheld : s.noteRead s.holdsOperands = s := by rw [holdsOperands_of_conforming h hphase, noteRead_true]
  rcases sequencerStep_cases s with ⟨n, hn, hs⟩ | ⟨-, ⟨e, he, hs⟩ | ⟨hend, hs⟩⟩ <;> rw [hs]
  · exact .pause ⟨hphase, rfl, rfl⟩ rfl rfl (by simp [State.pause, hn, hc])
  · rw [hheld]
    have htrace := performEntry_operationTrace he
    have hbusy : e.phase ≠ .idle :=
      transaction_phase (dataPhase_operationBody s) e (operationTrace_eq s ▸ List.mem_of_getElem? he)
    exact .event ⟨by simpa using hbusy, htrace, by simp⟩ e he (by simp) (by simp)
  · rw [hheld]
    have hdone := List.getElem?_eq_none_iff.mp hend
    obtain ⟨⟨_, _, -, -, -, -, -, hagrees⟩, -⟩ := busy_of_conforming h hphase
    rcases complete_cases_of_agreesWith hagrees hdone with ⟨hi, hcomplete⟩ | ⟨-, rbuf, hcomplete⟩ <;> rw [hcomplete]
    · exact .finish hdone rfl rfl fun hi' => absurd (hi.symm.trans hi') (by decide)
    · exact .finish hdone rfl rfl fun _ => ⟨rfl, rfl⟩

theorem operationStep_hostTurn {s u : State} (h : s.OperationStep u) (taken : Bool) : s.OperationStep (hostTurn taken u) := by
  obtain ⟨_, _, _, _, ht⟩ := hostTurn_engine taken u
  rw [ht]
  cases h with
  | pause same pos trace less => exact .pause ⟨same.busy, same.trace, same.initPending⟩ pos trace less
  | event same e entry pos trace => exact .event ⟨same.busy, same.trace, same.initPending⟩ e entry pos trace
  | finish done idle trace response => exact .finish done idle trace response

theorem sequencerStep_script (s : State) : (sequencerStep s).script = s.script := by
  rcases sequencerStep_cases s with ⟨n, -, hs⟩ | ⟨-, ⟨e, -, hs⟩ | ⟨-, hs⟩⟩ <;> rw [hs]
  · rfl
  · simp
  · rcases complete_cases (s.noteRead s.holdsOperands) with ⟨-, hc⟩ | ⟨-, hc⟩ | ⟨-, n, hc⟩ <;> rw [hc] <;> rfl

/-- A peripheral that is there ignores a byte that names nothing, where the machine goes on at all (R222, log 18). -/
theorem badCommand_ignored {s u : State} (hk : s.periph.kind ≠ .absent) (hu : s.badCommand = .next u) :
    u = { s with periph := s.periph.ignoreCommand } := by
  unfold State.badCommand at hu
  split at hu
  · exact (Host.Outcome.next.inj hu).symm
  · split at hu
    · exact (Host.Outcome.next.inj hu).symm
    · cases hu
  · rename_i habsent
    exact absurd habsent hk

/-- The move of a step in an operation, if the host does not reset: the peripheral's or the sequencer's. -/
theorem step_operationMove {s t : State} (h : s.Conforming) (hphase : s.phase ≠ .idle) (hrst : s.rst = false)
    (hstep : step s = .next t) : ∃ u, t = hostTurn false u ∧ s.OperationStep u ∧ u.script = s.script := by
  rcases turn_cases s with ⟨-, hr⟩ | ⟨i, hturn, -, -, hc, hd⟩ | ⟨_, hturn, -, -, hc, -⟩ | ⟨hturn, -, hc, -⟩ |
      ⟨-, -, -, hidle, -⟩ | ⟨-, -, hready, -⟩ | ⟨-, -, -, hready, -⟩
  · cases hrst.symm.trans hr
  · rw [step, hturn] at hstep
    obtain ⟨u, hu, rfl⟩ := mapNext_eq_next.mp hstep
    obtain ⟨rc, index, hexec⟩ := exec_of_decodes hd
    rw [hexec] at hu
    rcases takeCommand_cases rc index (s.periph.shift.getLsbD 0) s with ⟨hk, -⟩ | ⟨-, ht⟩
    · exact absurd hk ((commandReady_iff _).mp hc).2.2
    · obtain rfl := Host.Outcome.next.inj (ht.symm.trans hu)
      exact ⟨_, rfl, operationStep_taken hphase hc (by simp [Periph.commandReady]), rfl⟩
  · rw [step, hturn] at hstep
    obtain ⟨u, hu, rfl⟩ := mapNext_eq_next.mp hstep
    obtain rfl := badCommand_ignored ((commandReady_iff _).mp hc).2.2 hu
    exact ⟨_, rfl, operationStep_taken hphase hc (by simp [Periph.commandReady]), rfl⟩
  · rw [step_sequencer hturn] at hstep
    exact ⟨_, (Host.Outcome.next.inj hstep).symm, operationStep_sequencer h hphase hc, sequencerStep_script s⟩
  · exact absurd hidle hphase
  · exact absurd ((reqReady_iff s).mp hready).1 hphase
  · exact absurd ((reqReady_iff s).mp hready).1 hphase

/-- A step of a conforming machine with an operation in hand, if the host does not reset. -/
theorem step_operationStep {s : State} (h : s.Conforming) (hphase : s.phase ≠ .idle) (hreset : s.noResetToCome) :
    ∃ t, step s = .next t ∧ t.Conforming ∧ t.noResetToCome ∧ s.OperationStep t := by
  obtain ⟨hrst, hscript⟩ := hreset
  obtain ⟨t, hstep⟩ := Proofs.conformingMachineNeverStops s h
  obtain ⟨u, rfl, hmove, hsame⟩ := step_operationMove h hphase hrst hstep
  exact ⟨_, hstep, Proofs.stepKeepsConforming s _ h hstep, hostTurn_noResetToCome (hsame ▸ hscript) false,
    operationStep_hostTurn hmove false⟩

/-! ### The run -/

/-- Some number of steps runs the operation in hand to its end (R108, R111). -/
def State.RunsToEnd (s : State) : Prop :=
  ∃ n t, core.run n s = .next t ∧ t.phase = .idle ∧
    t.trace = (eventsOf (s.operationTrace.drop s.pos)).reverse ++ s.trace ∧
    (s.initPending = false → t.rspValid = true ∧ t.rspStatus = some .ok)

theorem run_succ {M : Host.Core} {s u : M.State} (h : M.step s = .next u) (n : Nat) : M.run (n + 1) s = M.run n u := by
  rw [Host.Core.run, h]

/-- What is left of the trace at a position is its entry and what is left after it. -/
theorem eventsOf_drop {t : List Entry} {n : Nat} {e : Entry} (h : t[n]? = some e) :
    eventsOf (t.drop n) = e.event :: eventsOf (t.drop (n + 1)) := by
  rw [List.drop_eq_getElem?_toList_append, h]
  rfl

/-- A step of the operation leaves a run to its end to be made by the steps after it. -/
theorem runsToEnd_of_step {s t : State} (hstep : step s = .next t) (hmove : s.OperationStep t)
    (hrest : t.phase ≠ .idle → t.RunsToEnd) : s.RunsToEnd := by
  cases hmove with
  | pause same pos trace less =>
    obtain ⟨n, u, hrun, hidle, htrace, hrsp⟩ := hrest same.busy
    exact ⟨n + 1, u, (run_succ (M := core) hstep n).trans hrun, hidle, by rw [htrace, same.trace, pos, trace],
      fun hi => hrsp (same.initPending.trans hi)⟩
  | event same e entry pos trace =>
    obtain ⟨n, u, hrun, hidle, htrace, hrsp⟩ := hrest same.busy
    refine ⟨n + 1, u, (run_succ (M := core) hstep n).trans hrun, hidle, ?_, fun hi => hrsp (same.initPending.trans hi)⟩
    rw [htrace, same.trace, pos, trace, eventsOf_drop entry]
    simp
  | finish done idle trace response =>
    exact ⟨1, t, run_succ (M := core) hstep 0, idle, by rw [List.drop_of_length_le done, trace]; rfl, response⟩

/-- By the events left in the trace and, between two of them, the steps to come before the next. -/
theorem runsToEnd (s : State) (h : s.Conforming) (hphase : s.phase ≠ .idle) (hreset : s.noResetToCome) : s.RunsToEnd := by
  obtain ⟨t, hstep, ht, hreset', hmove⟩ := step_operationStep h hphase hreset
  refine runsToEnd_of_step hstep hmove fun hbusy => ?_
  have hless : (t.operationTrace.length - t.pos < s.operationTrace.length - s.pos) ∨
      (t.operationTrace.length - t.pos = s.operationTrace.length - s.pos ∧ t.pause < s.pause) := by
    cases hmove with
    | pause same pos trace less => exact .inr ⟨by rw [same.trace, pos], less⟩
    | event same e entry pos trace =>
      have hlt := (List.getElem?_eq_some_iff.mp entry).1
      exact .inl (by rw [same.trace, pos]; omega)
    | finish done idle trace response => exact absurd idle hbusy
  exact runsToEnd t ht hbusy hreset'
termination_by (s.operationTrace.length - s.pos, s.pause)
decreasing_by
  exact Prod.lex_def.mpr hless

end Sys2Proof.Machine

namespace Sys2Proof.Proofs

open Sys2Proof Sys2Proof.Machine

/-- Settles O56: step by step, to the end of the trace. -/
theorem operationRunsItsWholeTrace : Obligations.OperationRunsItsWholeTrace := runsToEnd

end Sys2Proof.Proofs

/-! PROOFS. Where nothing is wired to the lines no command is taken (41_single_register.md R130, log 24); and a WRITE and then a READ of
one register against the responder, run to their end (41_single_register.md R130 to R132; 60_exceptions.md R222 to R224). -/

namespace Sys2Proof.Machine

open Sys2Proof

/-! ### Commands and the register they select -/

/-- Where nothing is wired to the lines, nothing takes a command (R130, log 24). -/
theorem takeCommand_absent {s : State} (hk : s.periph.kind = .absent) (rc : Bool) (index : Nat) (isRead : Bool) :
    takeCommand rc index isRead s = .next s := by
  rcases takeCommand_cases rc index isRead s with ⟨-, h⟩ | ⟨hpresent, -⟩
  · exact h
  · exact absurd hk hpresent

/-- The commands of a RAM byte and of the bursts are taken at their index. -/
theorem exec_otherCommands {n : BitVec 5} {c : Instr × Nat × Bool × Bool} (hc : c ∈ otherCommands n) (s : State) :
    exec c.1 s = takeCommand c.2.2.1 c.2.1 c.2.2.2 s := by
  simp only [otherCommands, List.mem_cons, List.not_mem_nil, or_false] at hc
  rcases hc with rfl | rfl | rfl | rfl | rfl | rfl <;> rfl

/-- Under the default map the byte `c` is the command that selects one register or RAM byte, to be read or to be written. -/
def Selects (c : Byte) (rc : Bool) (index : Nat) (isRead : Bool) : Prop :=
  ∃ i, decodeCommand Config.regMap c = .ok i ∧ ∀ s, exec i s = takeCommand rc index isRead s

/-- Both forms of a row that is no burst's are taken at the same register (R34, R83). -/
theorem make_selects {m : RegMap} {r : CommandRow} (hr : r ∈ clockRows m ∨ r ∈ ramRows m) :
    ∃ rc index, (∀ isRead s, exec (r.make isRead) s = takeCommand rc index isRead s) ∧ index ≠ 31 := by
  rcases hr with hr | hr
  · simp only [clockRows, List.mem_cons, List.not_mem_nil, or_false] at hr
    rcases hr with rfl | rfl | rfl | rfl | rfl | rfl | rfl | rfl | rfl <;>
      exact ⟨false, _, fun isRead _ => by cases isRead <;> rfl, by decide⟩
  · obtain ⟨n, hn, rfl⟩ := List.mem_map.mp hr
    have hindex : (BitVec.ofNat 5 n).toNat ≠ 31 := by
      simp [Config.ramSize] at hn ⊢
      omega
    exact ⟨true, _, fun isRead _ => by cases isRead <;> rfl, hindex⟩

/-- READ's and WRITE's command bytes of an operand are the two forms of the operand's write form (R84, R85). -/
theorem commands_of_writeForm (addr : Byte) :
    readCommand addr = (addr &&& 0xFE) ||| 0x01 ∧ writeCommand addr = addr &&& 0xFE := by
  revert addr
  decide

/-- Of an operand that is valid and names no burst, READ's and WRITE's command bytes select the same register. -/
theorem commands_select {addr : Byte} (hv : validAddr Config.regMap addr = true) (hclock : addr &&& 0xFE ≠ 0xBE)
    (hram : addr &&& 0xFE ≠ 0xFE) :
    ∃ rc index, index ≠ 31 ∧ Selects (writeCommand addr) rc index false ∧ Selects (readCommand addr) rc index true := by
  rw [validAddr_iff_mem, ← commandTable_writeForms] at hv
  obtain ⟨r, hr, hform⟩ := List.mem_map.mp hv
  have hrow : r ∈ clockRows Config.regMap ∨ r ∈ ramRows Config.regMap := by
    rcases mem_commandTable.mp hr with h | h | h
    · exact .inl h
    · exact .inr h
    · simp only [burstRows, List.mem_cons, List.not_mem_nil, or_false] at h
      rcases h with rfl | rfl
      · exact absurd hform.symm hclock
      · exact absurd hform.symm hram
  obtain ⟨rc, index, hexec, hindex⟩ := make_selects hrow
  have hdecode := decodeCommand_row defaultMap_wf hr
  obtain ⟨hread, hwrite⟩ := commands_of_writeForm addr
  rw [hform] at hdecode
  exact ⟨rc, index, hindex, ⟨_, hwrite ▸ hdecode false, hexec false⟩, ⟨_, hread ▸ hdecode true, hexec true⟩⟩

/-! ### The run of a machine whose host only waits -/

/-- Some number of steps leads from `s` to `t`. -/
def State.Runs (s t : State) : Prop := Relation.ReflTransGen (fun a b => step a = .next b) s t

theorem run_of_runs {s t : State} (h : s.Runs t) : ∃ n, core.run n s = .next t := by
  induction h using Relation.ReflTransGen.head_induction_on with
  | refl => exact ⟨0, rfl⟩
  | head hstep _ ih =>
    obtain ⟨n, hn⟩ := ih
    exact ⟨n + 1, (run_succ (M := core) hstep n).trans hn⟩

/-- A host with no move to come that goes on showing what is on the port: it does not reset, and holds a request it presents. -/
structure State.HostStill (s : State) (port : Port) : Prop where
  rst    : s.rst = false
  script : s.script = []
  held   : port.valid = true → port.held = true
  port   : s.port = port

/-- Its turn changes nothing until its request is answered (R225). -/
theorem hostTurn_still {s : State} {port : Port} (h : s.HostStill port) : hostTurn false s = s := by
  obtain ⟨hrst, hscript, hheld, hport⟩ := h
  obtain ⟨valid, held, request⟩ := port
  have hs : { s with port := ⟨valid, held, request⟩, rst := false } = s := by rw [← hport, ← hrst]
  cases valid
  · rw [← hs]
    simp [hostTurn, hscript]
  · obtain rfl : held = true := hheld rfl
    rw [← hs]
    simp [hostTurn]

/-- A conforming machine of the default map with no abort recorded and no init write pending, whose host is still. -/
structure State.Serving (s : State) (port : Port) : Prop extends s.HostStill port where
  conforming  : s.Conforming
  map         : s.params.regMap = Config.regMap
  aborted     : s.aborted = false
  initPending : s.initPending = false

section

variable {s : State} {port : Port} (h : s.Serving port) (hbusy : s.phase ≠ .idle)
include h hbusy

/-- A command byte waits nowhere but after the 48th event of a transaction. -/
theorem commandReady_elsewhere (hpos : s.pos ≠ 48) : s.periph.commandReady = false := by
  obtain ⟨-, hlines⟩ := busy_of_conforming h.conforming hbusy
  obtain ⟨-, hagrees⟩ := hlines h.aborted
  cases hc : s.periph.commandReady
  · rfl
  · exact absurd (takingCommand_of_commandReady hagrees hc).1 hpos

/-- It reads no operand without value (R46). -/
theorem noteRead_serving : s.noteRead s.holdsOperands = s := by
  rw [holdsOperands_of_conforming h.conforming hbusy, noteRead_true]

/-- With no command byte waiting, a step is the sequencer's alone. -/
theorem step_serving (hc : s.periph.commandReady = false) {t : State} (hseq : sequencerStep s = t) (ht : t.HostStill port) :
    step s = .next t := by
  have hturn : s.turn = .sequencer := by
    simp [State.turn, State.reqReady, h.rst, hc, hbusy]
  rw [step_sequencer hturn, hseq, hostTurn_still ht]

end

/-- The delay unit's register at another value. -/
def State.withWait (s : State) (w : Option Nat) : State := { s with waitCtr := w }

theorem withWait_serving {s : State} {port : Port} (h : s.Serving port) (w : Option Nat) : (s.withWait w).Serving port :=
  ⟨⟨h.rst, h.script, h.held, h.port⟩, h.conforming, h.map, h.aborted, h.initPending⟩

/-- A wait that is running runs out, tick by tick, and nothing else changes (R29). -/
theorem runs_waitOver {s : State} {port : Port} (h : s.Serving port) (hbusy : s.phase ≠ .idle)
    (hc : s.periph.commandReady = false) : ∃ w, s.Runs (s.withWait w) ∧ (s.withWait w).noWait := by
  have hticks : ∀ n, (s.withWait (some n)).Runs (s.withWait (some 0)) := fun n => by
    induction n with
    | zero => exact .refl
    | succ n ih =>
      exact .head (step_serving (withWait_serving h (some (n + 1))) hbusy hc rfl (withWait_serving h (some n)).toHostStill) ih
  cases hw : s.waitCtr with
  | none => exact ⟨none, by rw [show s.withWait none = s by rw [← hw]; rfl]; exact .refl, fun n => nofun⟩
  | some n => exact ⟨some 0, by simpa [State.withWait, ← hw] using hticks n, fun n => nofun⟩

/-! ### The entries of a trace, one after another -/

/-- What the lines see of two states is the same: the latches, the bits sampled, the peripheral and the next free level. -/
structure State.SameLines (t m : State) : Prop where
  levels  : t.levels = m.levels
  aborted : t.aborted = m.aborted
  rx      : t.rx = m.rx
  draws   : t.draws = m.draws
  periph  : t.periph = m.periph

theorem sameLines_line {t m : State} (h : t.SameLines m) : t.line = m.line := by
  obtain ⟨-, -, hdout, hdir⟩ := Levels.mk.inj h.levels
  rw [State.line, State.line, hdir, hdout, h.periph, h.draws]

/-- The peripheral after an event: what the event makes of it, drawn anew once an abort is recorded (R207). -/
theorem emit_periph_eq (e : Event) (s : State) :
    (emit e s).periph = if s.aborted then (applyEvent e s).periph.scramble s.draws else (applyEvent e s).periph := by
  cases ha : s.aborted <;> cases e <;> simp only [emit, applyEvent, State.afterAbort, ha] <;> rfl

/-- An event reads and writes no more than that and its own record. -/
theorem emit_sameLines {t m : State} (h : t.SameLines m) (e : Event) : (emit e t).SameLines (emit e m) where
  levels  := by rw [emit_levels, emit_levels, h.levels]
  aborted := by rw [emit_aborted, emit_aborted, h.aborted]
  rx      := by
    by_cases he : ∃ k, e = .sample k
    · obtain ⟨k, rfl⟩ := he
      rw [emit_sample_rx, emit_sample_rx, h.rx, sameLines_line h]
    · rw [emit_rx fun k hk => he ⟨k, hk⟩, emit_rx fun k hk => he ⟨k, hk⟩, h.rx]
  draws   := by rw [emit_draws, emit_draws, h.draws]
  periph  := by
    obtain ⟨-, hclk, -, -⟩ := Levels.mk.inj h.levels
    have happly : (applyEvent e t).periph = (applyEvent e m).periph := by
      cases e <;> simp only [applyEvent, hclk, h.periph, sameLines_line h]
    rw [emit_periph_eq, emit_periph_eq, happly, h.aborted, h.draws]

theorem emitAll_sameLines {t m : State} (h : t.SameLines m) (es : List Event) : (emitAll es t).SameLines (emitAll es m) := by
  induction es generalizing t m with
  | nil => exact h
  | cons e rest ih => exact ih (emit_sameLines h e)

theorem sameLines_trans {a b c : State} (h : a.SameLines b) (h' : b.SameLines c) : a.SameLines c :=
  ⟨h.levels.trans h'.levels, h.aborted.trans h'.aborted, h.rx.trans h'.rx, h.draws.trans h'.draws, h.periph.trans h'.periph⟩

/-- The lines see of an entry its event alone. -/
theorem performEntry_sameLines (e : Entry) (s : State) : (performEntry e s).SameLines (emit e.event s) where
  levels  := by rw [performEntry_levels, emit_levels]
  aborted := by rw [performEntry_aborted, emit_aborted]
  rx      := performEntry_rx e s
  draws   := by simp [performEntry]
  periph  := performEntry_periph e s

/-- `t` is reached from `s` in the same operation, `n` entries of its trace further on. -/
structure State.Advances (s : State) (port : Port) (n : Nat) (t : State) : Prop where
  runs    : s.Runs t
  serving : t.Serving port
  busy    : t.phase ≠ .idle
  pos     : t.pos = s.pos + n
  trace   : t.operationTrace = s.operationTrace

/-- `t` is reached from `s` by the entries `es` and the waits between them. -/
structure State.Performs (s : State) (port : Port) (es : List Entry) (t : State) : Prop
    extends s.Advances port es.length t where
  lines : t.SameLines (emitAll (eventsOf es) s)
  rdata : (∀ e ∈ es, e.dest ≠ .rdata) → t.rspRdata = s.rspRdata

theorem performs_append {s t u : State} {port : Port} {a b : List Entry} (ha : s.Performs port a t) (hb : t.Performs port b u) :
    s.Performs port (a ++ b) u where
  runs    := ha.runs.trans hb.runs
  serving := hb.serving
  busy    := hb.busy
  pos     := by rw [hb.pos, ha.pos, List.length_append, Nat.add_assoc]
  trace   := hb.trace.trans ha.trace
  lines   := by
    rw [eventsOf_append, emitAll_append]
    exact sameLines_trans hb.lines (emitAll_sameLines ha.lines _)
  rdata   := fun hdest => (hb.rdata fun e he => hdest e (List.mem_append_right a he)).trans
    (ha.rdata fun e he => hdest e (List.mem_append_left b he))

/-- What is left of the trace when some entries have been performed. -/
theorem advances_rest {s t : State} {port : Port} {es rest : List Entry} (h : s.Advances port es.length t)
    (hdrop : s.operationTrace.drop s.pos = es ++ rest) : t.operationTrace.drop t.pos = rest := by
  rw [h.trace, h.pos, ← List.drop_drop, hdrop, List.drop_left]

/-- An entry leaves the machine serving. -/
theorem performEntry_serving {s : State} {port : Port} {e : Entry} (h : s.Serving port) (hbusy : s.phase ≠ .idle)
    (hc : s.periph.commandReady = false) (he : s.operationTrace[s.pos]? = some e) : (performEntry e s).Serving port where
  rst         := by simpa [performEntry] using h.rst
  script      := by simpa using h.script
  port        := by simpa [performEntry] using h.port
  held        := h.held
  conforming  := performEntry_conforming h.conforming hbusy hc he
  map         := by simpa using h.map
  aborted     := by simpa using h.aborted
  initPending := by simpa using h.initPending

/-- The next entry is performed when the wait before it is over; a byte it delivers to `rsp_rdata` is the one in `rx` (R130). -/
theorem performs_entry {s : State} {port : Port} {e : Entry} {rest : List Entry} (h : s.Serving port) (hbusy : s.phase ≠ .idle)
    (hc : s.periph.commandReady = false) (hdrop : s.operationTrace.drop s.pos = e :: rest) :
    ∃ t, s.Performs port [e] t ∧ (e.dest = .rdata → ∀ v, assemble t.rx = some v → t.rspRdata = some v) := by
  obtain ⟨w, hwait, hno⟩ := runs_waitOver h hbusy hc
  have hw := withWait_serving h w
  have he : s.operationTrace[s.pos]? = some e := by rw [← List.head?_drop, hdrop]; rfl
  have hserving : (performEntry e (s.withWait w)).Serving port := performEntry_serving hw hbusy hc he
  have hstep : step (s.withWait w) = .next (performEntry e (s.withWait w)) :=
    step_serving hw hbusy hc ((sequencerStep_event hno he).trans (by rw [noteRead_serving hw hbusy])) hserving.toHostStill
  have hphase : e.phase ≠ .idle :=
    transaction_phase (dataPhase_operationBody s) e (operationTrace_eq s ▸ List.mem_of_getElem? he)
  have hlines : (performEntry e (s.withWait w)).SameLines (emit e.event s) :=
    sameLines_trans (performEntry_sameLines e _) (emit_sameLines (m := s) (t := s.withWait w) ⟨rfl, rfl, rfl, rfl, rfl⟩ e.event)
  refine ⟨_, ⟨⟨hwait.tail hstep, hserving, by simpa using hphase, performEntry_pos e _, performEntry_operationTrace he⟩,
    hlines, fun hdest => ?_⟩, fun hdest v hv => ?_⟩
  · rw [performEntry_eq_emit, advance_rspRdata, deliver_rspRdata_other (hdest e List.mem_cons_self)]
    simp [State.withWait]
  · rw [performEntry_eq_emit, hdest, advance_rx, deliver_rx] at hv
    rw [performEntry_eq_emit, hdest]
    exact congrArg some (received_of_assemble hv)

/-- Entries performed after the command byte leave none waiting. -/
theorem performs_ready {s t : State} {port : Port} {es : List Entry} (h : s.Performs port es t) (h48 : 48 ≤ s.pos)
    (hne : es ≠ []) : t.periph.commandReady = false := by
  have hlen := List.length_pos_iff.mpr hne
  exact commandReady_elsewhere h.serving h.busy (by rw [h.pos]; omega)

/-- A stretch of the trace is performed, where no command byte is taken in it. -/
theorem performs_entries {s : State} {port : Port} {es rest : List Entry} (h : s.Serving port) (hbusy : s.phase ≠ .idle)
    (hc : es ≠ [] → s.periph.commandReady = false) (h48 : 48 ≤ s.pos ∨ s.pos + es.length ≤ 48)
    (hdrop : s.operationTrace.drop s.pos = es ++ rest) : ∃ t, s.Performs port es t := by
  induction es generalizing s with
  | nil => exact ⟨s, ⟨.refl, h, hbusy, rfl, rfl⟩, ⟨rfl, rfl, rfl, rfl, rfl⟩, fun _ => rfl⟩
  | cons e es ih =>
    obtain ⟨t, ht, -⟩ := performs_entry h hbusy (hc (List.cons_ne_nil e es)) hdrop
    have hpos : t.pos = s.pos + 1 := ht.pos
    rw [List.length_cons] at h48
    obtain ⟨u, hu⟩ := ih ht.serving ht.busy
      (fun hne => have := List.length_pos_iff.mpr hne; commandReady_elsewhere ht.serving ht.busy (by omega))
      (by omega) (advances_rest (es := [e]) ht.toAdvances hdrop)
    exact ⟨u, performs_append ht hu⟩

/-- The same for a stretch whose last entry delivers to `rsp_rdata`: the byte delivered is the one in `rx` (R130). -/
theorem performs_delivery {s : State} {port : Port} {es rest : List Entry} {last : Entry} (h : s.Serving port)
    (hbusy : s.phase ≠ .idle) (hc : s.periph.commandReady = false) (h48 : 48 ≤ s.pos) (hne : es ≠ [])
    (hdrop : s.operationTrace.drop s.pos = es ++ last :: rest) (hdest : last.dest = .rdata) :
    ∃ t, s.Performs port (es ++ [last]) t ∧ ∀ v, assemble t.rx = some v → t.rspRdata = some v := by
  obtain ⟨t, ht⟩ := performs_entries h hbusy (fun _ => hc) (.inl h48) hdrop
  obtain ⟨u, hu, hdelivers⟩ := performs_entry ht.serving ht.busy (performs_ready ht h48 hne) (advances_rest ht.toAdvances hdrop)
  exact ⟨u, performs_append ht hu, hdelivers hdest⟩

/-- The end of the operation is reached from `s`, with the response and the status OK (R108). -/
structure State.Finishes (s : State) (port : Port) (t : State) : Prop where
  runs    : s.Runs t
  serving : t.Serving port
  idle    : t.phase = .idle
  valid   : t.rspValid = true
  status  : t.rspStatus = some .ok

/-- Past its last entry the operation ends when the last wait is over; neither the byte received nor the peripheral changes. -/
theorem finishes_operation {s : State} {port : Port} (h : s.Serving port) (hbusy : s.phase ≠ .idle)
    (hc : s.periph.commandReady = false) (hdrop : s.operationTrace.drop s.pos = []) :
    ∃ t, s.Finishes port t ∧ t.rspRdata = s.rspRdata ∧ t.periph = s.periph := by
  obtain ⟨w, hwait, hno⟩ := runs_waitOver h hbusy hc
  have hw := withWait_serving h w
  have hend : (s.withWait w).operationTrace.length ≤ (s.withWait w).pos := List.drop_eq_nil_iff.mp hdrop
  obtain ⟨⟨_, _, -, -, -, -, -, hagrees⟩, -⟩ := busy_of_conforming hw.conforming hbusy
  have hcomplete := complete_conforming hw.conforming hbusy hend
  rcases complete_cases_of_agreesWith hagrees hend with ⟨hi, -⟩ | ⟨-, rbuf, hrespond⟩
  · exact absurd (hi.symm.trans hw.initPending) (by decide)
  · rw [hrespond] at hcomplete
    have hserving : ((s.withWait w).respond rbuf).Serving port :=
      ⟨⟨h.rst, h.script, h.held, h.port⟩, hcomplete, h.map, h.aborted, h.initPending⟩
    have hstep : step (s.withWait w) = .next ((s.withWait w).respond rbuf) :=
      step_serving hw hbusy hc ((sequencerStep_complete hno hend).trans (by rw [noteRead_serving hw hbusy, hrespond]))
        hserving.toHostStill
    exact ⟨_, ⟨hwait.tail hstep, hserving, rfl, rfl, rfl⟩, rfl, rfl⟩

/-- The rest of a trace is performed and the operation ends: the peripheral is what the events make of it. -/
theorem finishes_entries {s : State} {port : Port} {es : List Entry} (h : s.Serving port) (hbusy : s.phase ≠ .idle)
    (hc : s.periph.commandReady = false) (h48 : 48 ≤ s.pos) (hne : es ≠ []) (hdrop : s.operationTrace.drop s.pos = es) :
    ∃ t, s.Finishes port t ∧ t.periph = (emitAll (eventsOf es) s).periph ∧
      ((∀ e ∈ es, e.dest ≠ .rdata) → t.rspRdata = s.rspRdata) := by
  have hall : s.operationTrace.drop s.pos = es ++ [] := by rw [hdrop, List.append_nil]
  obtain ⟨t, ht⟩ := performs_entries h hbusy (fun _ => hc) (.inl h48) hall
  obtain ⟨u, hu, hrdata, hperiph⟩ :=
    finishes_operation ht.serving ht.busy (performs_ready ht h48 hne) (advances_rest ht.toAdvances hall)
  exact ⟨u, { hu with runs := ht.runs.trans hu.runs }, hperiph.trans ht.lines.periph, fun hdest => hrdata.trans (ht.rdata hdest)⟩

/-! ### The command byte -/

/-- The engine with an operation just accepted, before its first event. -/
structure State.Begins (s : State) (port : Port) (op : HostOp) (cmd tx : Byte) : Prop where
  serving : s.Serving port
  busy    : s.phase ≠ .idle
  pos     : s.pos = 0
  op      : s.op = some op
  cmd     : s.cmd = some cmd
  tx      : s.tx = some tx

/-- The peripheral with the whole command byte `c` in its shift register, still to be taken. -/
def Periph.waiting (p : Periph) (c : Byte) : Periph := { p with mode := .cmd, shift := c, nbits := 8 }

/-- The peripheral that has taken the command byte `c` of one register. -/
def Periph.selected (p : Periph) (c : Byte) (rc : Bool) (index : Nat) (isRead : Bool) : Periph :=
  { p with
    shift := c, nbits := 0, rc := rc, burst := false, ptr := index, mode := if isRead then .rdata else .wdata }

theorem emitAll_levels (es : List Event) (s : State) : (emitAll es s).levels = s.levels.afterAll es := by
  induction es generalizing s with
  | nil => rfl
  | cons e rest ih => exact (ih (emit e s)).trans (by rw [emit_levels]; rfl)

theorem emitAll_aborted (es : List Event) (s : State) : (emitAll es s).aborted = s.aborted := by
  induction es generalizing s with
  | nil => rfl
  | cons e rest ih => exact (ih (emit e s)).trans (emit_aborted e s)

/-- Every command byte is sent up to its eighth rising edge before what follows it makes a difference (R102, R103). -/
theorem headEntries_take (cmd : Byte) (isRead : Bool) :
    eventsOf ((headEntries cmd isRead).take 48) =
      [.dir .out, .ce true, .wait .ceSu] ++ eventsOf ((writeBits .addressing none cmd true).take 45) := by
  cases isRead <;> rfl

theorem writeBits_release_split (cmd : Byte) :
    eventsOf (writeBits .addressing none cmd true) =
      eventsOf ((writeBits .addressing none cmd true).take 45) ++ [.wait .dh, .dir .in] := rfl

/-- `start` finds a responder and has it wait for a command byte, the line driven and the clock low (R100, R221). -/
theorem emitAll_start {s : State} (hk : s.periph.kind = .responder) (hclk : s.clk = false) (ha : s.aborted = false) :
    (emitAll [.dir .out, .ce true, .wait .ceSu] s).StandsAt ⟨true, false, s.dout, .out⟩
      { s.periph with mode := .cmd, nbits := 0 } := by
  have hdir := emit_quiet_standsAt (s := s) ⟨rfl, ha, rfl⟩ (e := .dir .out) nofun nofun
  have hce : (emit (.ce true) (emit (.dir .out) s)).StandsAt ⟨true, false, s.dout, .out⟩
      { s.periph with mode := .cmd, nbits := 0 } :=
    ⟨by rw [emit_levels, hdir.levels, State.levels, hclk]; rfl, by rw [emit_aborted, hdir.aborted],
      by rw [emit_ce_periph hdir.aborted, hdir.periph]; simp [Periph.enable, hk]⟩
  exact emit_quiet_standsAt hce (e := .wait .ceSu) nofun nofun

/-- The first 48 events of a transaction leave the command byte in a responder that was at rest, and the clock high. -/
theorem emitAll_command {s : State} (hk : s.periph.kind = .responder) (hrest : s.periph.atRest) (hclk : s.clk = false)
    (ha : s.aborted = false) (cmd : Byte) (isRead : Bool) :
    (emitAll (eventsOf ((headEntries cmd isRead).take 48)) s).StandsAt ⟨true, true, cmd.getLsbD 7, .out⟩
      (s.periph.waiting cmd) := by
  obtain ⟨hdrive, -⟩ := hrest
  have hstart := emitAll_start hk hclk ha
  rw [headEntries_take, emitAll_append]
  generalize emitAll [.dir .out, .ce true, .wait .ceSu] s = u at hstart ⊢
  obtain ⟨-, huclk, -, hudir⟩ := Levels.mk.inj hstart.levels
  refine ⟨by rw [emitAll_levels, hstart.levels]; rfl, by rw [emitAll_aborted, hstart.aborted], ?_⟩
  have hlisten : u.periph.Listening := by
    rw [hstart.periph]
    exact ⟨hdrive, nofun⟩
  have hbyte := periph_writeBits hlisten hudir huclk hstart.aborted .addressing none cmd true
  rw [writeBits_release_split, emitAll_append] at hbyte
  have ha' : (emitAll (eventsOf ((writeBits .addressing none cmd true).take 45)) u).aborted = false := by
    rw [emitAll_aborted, hstart.aborted]
  have hquiet := emit_quiet_standsAt (emit_quiet_standsAt ⟨rfl, ha', rfl⟩ (e := .wait .dh) nofun nofun)
    (e := .dir .in) nofun nofun
  rw [← hquiet.periph]
  refine hbyte.trans ?_
  rw [hstart.periph, receive_command (by rw [hk]; decide) rfl rfl]
  rfl

/-- The events a transaction has after its first 48: the rest of the command byte, the data phase and `stop`. -/
def transactionRest (cmd : Byte) (isRead : Bool) (body : List Entry) : List Entry :=
  (headEntries cmd isRead).drop 48 ++ body ++ stopEntries

theorem transaction_split (cmd : Byte) (isRead : Bool) (body : List Entry) :
    transaction cmd isRead body = (headEntries cmd isRead).take 48 ++ transactionRest cmd isRead body := by
  rw [transactionRest, ← List.append_assoc, ← List.append_assoc, List.take_append_drop, transaction]

/-- Before its first event an operation finds the clock low and a responder at rest. -/
theorem atRest_of_begins {s : State} {port : Port} {op : HostOp} {cmd tx : Byte} (h : s.Begins port op cmd tx)
    (hk : s.periph.kind = .responder) : s.clk = false ∧ s.periph.atRest := by
  obtain ⟨⟨_, _, -, -, -, -, -, -, ⟨_, _, hlevels⟩, -⟩, hlines⟩ := busy_of_conforming h.serving.conforming h.busy
  obtain ⟨-, hagrees⟩ := hlines h.serving.aborted
  rw [h.pos, List.take_zero] at hlevels
  exact ⟨congrArg Levels.clk hlevels, (agreesWith_rest_iff (by rw [hk]; decide) (.inl (by rw [h.pos]; decide))).mp hagrees⟩

/-- The responder takes the command of one register that waits in it (R222, log 1). -/
theorem step_takes {s : State} {port : Port} (h : s.Serving port) (hbusy : s.phase ≠ .idle) {p : Periph}
    (hk : p.kind = .responder) {cmd : Byte} (hp : s.periph = p.waiting cmd) {rc isRead : Bool} {index : Nat}
    (hsel : Selects cmd rc index isRead) (hindex : index ≠ 31) :
    step s = .next { s with periph := p.selected cmd rc index isRead } ∧
      State.Serving { s with periph := p.selected cmd rc index isRead } port := by
  obtain ⟨i, hdecode, hexec⟩ := hsel
  obtain ⟨hruns, -, -⟩ := Proofs.stepRunsTheDecodedInstruction s h.rst
  have hks : s.periph.kind = .responder := by rw [hp]; exact hk
  have hready : s.periph.commandReady = true := by rw [commandReady_iff, hp]; exact ⟨rfl, rfl, by rw [← hp, hks]; decide⟩
  have hdecode' : decodeCommand s.commandMap s.periph.shift = .ok i := by rw [State.commandMap, hks, hp]; exact hdecode
  have htaken : exec i s = .next { s with periph := p.selected cmd rc index isRead } := by
    rw [hexec, takeCommand_single (by rw [hks]; decide) rc hindex, hp]
    rfl
  have hstill : State.HostStill { s with periph := p.selected cmd rc index isRead } port := ⟨h.rst, h.script, h.held, h.port⟩
  have hstep : step s = .next { s with periph := p.selected cmd rc index isRead } := by
    rw [hruns i (.inl (by simp [State.reqReady, hbusy])) hready hdecode', htaken, mapNext_next, hostTurn_still hstill]
  exact ⟨hstep, hstill, Proofs.stepKeepsConforming s _ h.conforming hstep, h.map, h.aborted, h.initPending⟩

/-- The first 48 entries of an operation, and the taking of its command byte as soon as the eighth bit is in. -/
theorem begins_selected {s : State} {port : Port} {op : HostOp} {cmd tx : Byte} (h : s.Begins port op cmd tx)
    (hk : s.periph.kind = .responder) {rc isRead : Bool} {index : Nat} (hsel : Selects cmd rc index isRead)
    (hindex : index ≠ 31) :
    ∃ t, s.Advances port 48 t ∧ t.operationTrace.drop t.pos = transactionRest cmd op.isRead s.operationBody ∧
      t.StandsAt ⟨true, true, cmd.getLsbD 7, .out⟩ (s.periph.selected cmd rc index isRead) := by
  obtain ⟨hclk, hrest⟩ := atRest_of_begins h hk
  have hlen : ((headEntries cmd op.isRead).take 48).length = 48 := by
    rw [List.length_take, headEntries_length]
    split <;> rfl
  have hdrop : s.operationTrace.drop s.pos =
      (headEntries cmd op.isRead).take 48 ++ transactionRest cmd op.isRead s.operationBody := by
    rw [h.pos, List.drop_zero, operationTrace_eq, opInHand_of_op h.op, State.cmdInHand, h.cmd, valueOr_some,
      transaction_split]
  obtain ⟨t, ht⟩ := performs_entries h.serving h.busy
    (fun _ => commandReady_elsewhere h.serving h.busy (by rw [h.pos]; decide)) (by rw [h.pos, hlen]; decide) hdrop
  have hcommand := emitAll_command hk hrest hclk h.serving.aborted cmd op.isRead
  obtain ⟨hstep, hserving⟩ := step_takes ht.serving ht.busy hk (ht.lines.periph.trans hcommand.periph) hsel hindex
  have hleft := advances_rest ht.toAdvances hdrop
  exact ⟨_, ⟨ht.runs.tail hstep, hserving, ht.busy, by rw [← hlen]; exact ht.pos, ht.trace⟩, hleft,
    ht.lines.levels.trans hcommand.levels, ht.serving.aborted, rfl⟩

theorem operationBody_write {s : State} {v : Byte} (hop : s.op = some .write) (htx : s.tx = some v) :
    s.operationBody = writeBits .writing none v false := by
  rw [State.operationBody, opInHand_of_op hop, htx]
  rfl

theorem operationBody_read {s : State} (hop : s.op = some .read) : s.operationBody = readBits true none .rdata := by
  rw [State.operationBody, opInHand_of_op hop]

/-! ### WRITE -/

theorem disable_responder {p : Periph} (hk : p.kind = .responder) : p.disable = { p with mode := .off, drive := false } := by
  simp [Periph.disable, hk]

/-- A responder whose register `a` holds `v`. -/
structure Periph.Holds (p : Periph) (a : Nat) (v : Byte) : Prop where
  kind  : p.kind = .responder
  value : p.regByte a = v

/-- What follows the command byte of a WRITE puts the byte in the register at the responder's pointer (R131, R222). -/
theorem emitAll_written {s : State} {dout : Bool} {p : Periph} (hk : p.kind = .responder) (hm : p.mode = .wdata)
    (hb : p.nbits = 0) (hburst : p.burst = false) (hdrive : p.drive = false)
    (h : s.StandsAt ⟨true, true, dout, .out⟩ p) (cmd v : Byte) :
    (emitAll (eventsOf (transactionRest cmd false (writeBits .writing none v false))) s).periph.Holds
      (cellOf p.rc p.ptr) v := by
  have hlisten : p.Listening := ⟨hdrive, by rw [hm]; decide⟩
  have hlow : (emitAll (eventsOf ((headEntries cmd false).drop 48)) s).Transmitting false p :=
    ⟨true, dout, emit_quiet_standsAt (emit_fall_standsAt (emit_quiet_standsAt h (e := .wait .dh) nofun nofun) hlisten)
      (e := .wait .clr) nofun nofun⟩
  obtain ⟨_, _, hwritten⟩ := emitAll_writeBits hlow hlisten .writing none v false
  rw [transactionRest, eventsOf_append, eventsOf_append, emitAll_append, emitAll_append]
  generalize emitAll (eventsOf (writeBits .writing none v false)) _ = u at hwritten ⊢
  have hstop : (emitAll (eventsOf stopEntries) u).periph = u.periph.disable :=
    (emit_wait_periph ((emit_aborted _ _).trans hwritten.aborted) .ceRec).trans (emit_ce_periph hwritten.aborted false)
  have hreceived : p.receive v = (p.loaded v).put (cellOf p.rc p.ptr) v := by
    rw [receive_responder hk hm hb]
    exact responderByteIn_single (p := p.loaded v) hburst
  rw [hstop, hwritten.periph, hreceived, disable_responder (p := (p.loaded v).put (cellOf p.rc p.ptr) v) hk]
  exact ⟨hk, (regByte_put _ _ _ v).trans (if_pos rfl)⟩

/-- A WRITE against the responder ends with the byte in the register its command byte selects (R131, R222). -/
theorem write_finishes {s : State} {port : Port} {cmd v : Byte} (h : s.Begins port .write cmd v)
    (hk : s.periph.kind = .responder) {rc : Bool} {index : Nat} (hsel : Selects cmd rc index false) (hindex : index ≠ 31) :
    ∃ t, s.Finishes port t ∧ t.periph.Holds (cellOf rc index) v := by
  obtain ⟨-, hdrive, -⟩ := atRest_of_begins h hk
  obtain ⟨t, ht, hrest, hstands⟩ := begins_selected h hk hsel hindex
  rw [operationBody_write h.op h.tx] at hrest
  obtain ⟨u, hu, hperiph, -⟩ := finishes_entries ht.serving ht.busy (by rw [hstands.periph]; rfl)
    (by rw [ht.pos]; omega) (by simp [transactionRest, stopEntries]) hrest
  refine ⟨u, { hu with runs := ht.runs.trans hu.runs }, ?_⟩
  rw [hperiph]
  exact emitAll_written (p := s.periph.selected cmd rc index false) hk rfl rfl rfl hdrive hstands cmd v

/-! ### READ -/

/-- What follows the command byte of a READ, up to its last sample, brings the engine the byte at the responder's pointer (R130, R223). -/
theorem emitAll_read {s : State} {dout : Bool} {p : Periph} (hk : p.kind = .responder) (hp : p.Sending) (hb : p.nbits = 0)
    (h : s.StandsAt ⟨true, true, dout, .out⟩ p) (cmd : Byte) :
    assemble (emitAll (eventsOf ((headEntries cmd true).drop 48 ++ readBits true none .rdata)) s).rx =
      some (p.regByte (cellOf p.rc p.ptr)) := by
  have hreleased : (emitAll (eventsOf ((headEntries cmd true).drop 48)) s).StandsAt ⟨true, true, dout, .in⟩ p :=
    emit_quiet_standsAt (emit_quiet_standsAt h (e := .wait .dh) nofun nofun) (e := .dir .in) nofun nofun
  rw [eventsOf_append, emitAll_append]
  generalize emitAll (eventsOf ((headEntries cmd true).drop 48)) s = u at hreleased ⊢
  obtain ⟨hlevels, ha, rfl⟩ := hreleased
  obtain ⟨-, hclk, -, hdir⟩ := Levels.mk.inj hlevels
  obtain ⟨hreceived, hsource⟩ := Proofs.readByteReachesTheEngine
  obtain ⟨hbyte, -⟩ := hreceived u none .rdata hp.present hp.mode hb hp.pointer hdir ha
  rw [hclk] at hbyte
  rw [hbyte, (hsource u.periph).1 hk]

theorem selected_sending {p : Periph} (hk : p.kind = .responder) (cmd : Byte) (rc : Bool) (index : Nat) :
    (p.selected cmd rc index true).Sending where
  present := fun hc => absurd (hk.symm.trans hc) (by decide)
  mode    := rfl
  pointer := Nat.lt_succ_self index

/-- A READ against the responder ends with the byte of the register its command byte selects in `rsp_rdata` (R130, R223). -/
theorem read_finishes {s : State} {port : Port} {cmd tx : Byte} (h : s.Begins port .read cmd tx) {rc : Bool} {index : Nat}
    {v : Byte} (hholds : s.periph.Holds (cellOf rc index) v) (hsel : Selects cmd rc index true) (hindex : index ≠ 31) :
    ∃ t, s.Finishes port t ∧ t.rspRdata = some v := by
  obtain ⟨hk, hvalue⟩ := hholds
  obtain ⟨t, ht, hrest, hstands⟩ := begins_selected h hk hsel hindex
  obtain ⟨init, last, hbits, hdest, -⟩ := readBits_last true none .rdata
  have hpos : 48 ≤ t.pos := by rw [ht.pos]; omega
  have hdrop : t.operationTrace.drop t.pos = ((headEntries cmd true).drop 48 ++ init) ++ last :: stopEntries := by
    rw [hrest, operationBody_read h.op, hbits, transactionRest]
    simp [HostOp.isRead]
  obtain ⟨u, hu, hdelivers⟩ := performs_delivery ht.serving ht.busy (by rw [hstands.periph]; rfl) hpos
    (List.append_ne_nil_of_left_ne_nil (List.cons_ne_nil _ _) _) hdrop hdest
  have hlast : u.rspRdata = some v := by
    refine hdelivers v ?_
    rw [hu.lines.rx, List.append_assoc, ← hbits, ← hvalue]
    exact emitAll_read (p := s.periph.selected cmd rc index true) hk (selected_sending hk cmd rc index) rfl hstands cmd
  obtain ⟨f, hf, -, hkept⟩ := finishes_entries hu.serving hu.busy (performs_ready hu hpos (by simp)) (by rw [hu.pos]; omega)
    (List.cons_ne_nil _ _) (advances_rest hu.toAdvances (hdrop.trans (List.append_cons _ _ _)))
  exact ⟨f, { hf with runs := ht.runs.trans (hu.runs.trans hf.runs) }, (hkept (by decide)).trans hlast⟩

/-! ### The two requests -/

/-- A host with one request to come shows it when its last has been answered, and has then no move to come (R225). -/
theorem hostTurn_shows {s : State} {r : Request} (hscript : s.script = [.request r]) :
    (hostTurn true s).HostStill ⟨true, true, r⟩ := by
  simp only [hostTurn, hscript, Bool.not_true, Bool.and_false]
  exact ⟨rfl, rfl, fun _ => rfl, rfl⟩

/-- A host with no move to come presents nothing when its request has been answered (R225). -/
theorem hostTurn_silent {s : State} (hscript : s.script = []) :
    (hostTurn true s).HostStill { s.port with valid := false } := by
  simp only [hostTurn, hscript, Bool.not_true, Bool.and_false]
  exact ⟨rfl, rfl, nofun, rfl⟩

/-- A request that a ready engine accepts begins its operation (R25), and the host makes its next move. -/
theorem step_accepts {s : State} {op : HostOp} {cmd tx : Byte} (h : s.Conforming) (hrst : s.rst = false)
    (hr : s.reqReady = true) (hv : s.port.valid = true) (ha : s.aborted = false) (hmap : s.params.regMap = Config.regMap)
    (hexec : exec s.port.instr s = .next (s.accept op cmd tx [])) {port : Port}
    (hhost : (hostTurn true (s.accept op cmd tx [])).HostStill port) :
    ∃ t, step s = .next t ∧ t.Begins port op cmd tx ∧ t.periph = s.periph := by
  obtain ⟨-, hanswers, -⟩ := Proofs.stepRunsTheDecodedInstruction s hrst
  have hstep : step s = .next (hostTurn true (s.accept op cmd tx [])) := by
    rw [hanswers hr hv, hexec, mapNext_next]
  exact ⟨_, hstep,
    ⟨⟨hhost, Proofs.stepKeepsConforming s _ h hstep, by simpa using hmap, by simpa using ha,
      by simpa using ((reqReady_iff s).mp hr).2⟩, by simp, by simp, by simp, by simp, by simp⟩, by simp⟩

end Sys2Proof.Machine

namespace Sys2Proof.Proofs

open Sys2Proof Sys2Proof.Machine

/-- Settles O20: each of the twenty-four is a `takeCommand`, which leaves a state with nothing wired as it is. -/
theorem absentPeripheralTakesNoCommand : Obligations.AbsentPeripheralTakesNoCommand := by
  intro s n hk
  refine ⟨fun c hc => ?_, fun c hc => ?_⟩
  · obtain ⟨-, hexec⟩ := exec_clockCommands hc
    rw [hexec, takeCommand_absent hk]
  · rw [exec_otherCommands hc, takeCommand_absent hk]

/-- Settles O57: the WRITE leaves the byte in the register that the READ's command byte selects too. -/
theorem writeThenReadReturnsTheByte : Obligations.WriteThenReadReturnsTheByte := by
  intro s held addr v w b₁ b₂ h hr hrst hk ha hmap hv hclock hram hport hscript
  obtain ⟨rc, index, hindex, hwrite, hread⟩ := commands_select hv hclock hram
  obtain ⟨s₁, hstep₁, hbegins₁, hsame₁⟩ := step_accepts h hrst hr (by rw [hport]) ha hmap
    (by rw [hport]; exact writeIsAccepted addr v s hr (by rw [hmap]; exact hv))
    (hostTurn_shows hscript)
  obtain ⟨t, hends, hholds⟩ := write_finishes hbegins₁ (by rw [hsame₁]; exact hk) hwrite hindex
  have hready : t.reqReady = true := (reqReady_iff t).mpr ⟨hends.idle, hends.serving.initPending⟩
  obtain ⟨s₂, hstep₂, hbegins₂, hsame₂⟩ := step_accepts hends.serving.conforming
    hends.serving.rst hready (by rw [hends.serving.port]) hends.serving.aborted hends.serving.map
    (by rw [hends.serving.port]; exact readIsAccepted addr w t hready (by rw [hends.serving.map]; exact hv))
    (hostTurn_silent hends.serving.script)
  obtain ⟨u, hlast, hrdata⟩ := read_finishes hbegins₂ (by rw [hsame₂]; exact hholds) hread hindex
  obtain ⟨n, hrun⟩ := run_of_runs (.head hstep₁ (hends.runs.trans (.head hstep₂ hlast.runs)))
  obtain ⟨-, -, hlines⟩ := idle_of_conforming hlast.serving.conforming hlast.idle
  refine ⟨n, u, hrun, ?_, hlast.status, hrdata, (hlines hlast.serving.aborted).1⟩
  simp [State.runEnded, hlast.serving.script, hlast.serving.port, hlast.valid, hlast.idle, hlast.serving.initPending]

end Sys2Proof.Proofs

/-! PROOFS. CE falling at the chip with a clock-burst write not complete (42_burst.md R144; 60_exceptions.md R214, R219). -/

namespace Sys2Proof.Machine

open Sys2Proof

/-! ### The staged bytes -/

theorem dropStaged_of_empty {p : Periph} (h : p.staged = []) : p.dropStaged = p := by
  simp [Periph.dropStaged, h]

/-- Staged bytes are dropped by putting a free value in each clock register (R144, R219). -/
theorem dropStaged_of_staged {p : Periph} (h : p.staged ≠ []) :
    p.dropStaged = { p.putAll clockCells (Config.freeByte .cutShort p.txn) with staged := [] } := by
  simp [Periph.dropStaged, h]

@[simp] theorem dropStaged_staged (p : Periph) : p.dropStaged.staged = [] := by
  by_cases h : p.staged = []
  · rw [dropStaged_of_empty h, h]
  · rw [dropStaged_of_staged h]

/-- What a register holds once staged bytes are dropped: a clock register a free value, another what it held (R144, R219, log 15). -/
theorem regByte_dropStaged {p : Periph} (h : p.staged ≠ []) (a : Nat) :
    p.dropStaged.regByte a = if a ≤ 8 then Config.freeByte .cutShort p.txn a else p.regByte a := by
  have hput := regByte_putAll p clockCells (Config.freeByte .cutShort p.txn) a
  simp only [clockCells, List.mem_range, Nat.lt_succ_iff] at hput
  rw [dropStaged_of_staged h]
  exact hput

/-- CE falls at the chip: staged bytes are dropped, and it is OFF and does not drive (R214, R219). -/
theorem disable_chip {p : Periph} (hk : p.kind = .chip) : p.disable = { p.dropStaged with mode := .off, drive := false } := by
  simp [Periph.disable, hk]

end Sys2Proof.Machine

namespace Sys2Proof.Proofs

open Sys2Proof Sys2Proof.Machine

/-- Settles O46: CE falling drops the staged bytes; the mode and the driver that it sets besides are no part of a register. -/
theorem cutShortClockBurstLeavesFreeValues : Obligations.CutShortClockBurstLeavesFreeValues := by
  intro s a hk ha
  have hfall : (emit (.ce false) s).periph = { s.periph.dropStaged with mode := .off, drive := false } :=
    (emit_ce_periph ha false).trans (disable_chip hk)
  have hreg : (emit (.ce false) s).periph.regByte a = s.periph.dropStaged.regByte a := by rw [hfall]; rfl
  rw [hreg, hfall]
  refine ⟨fun hstaged => ?_, fun hempty => by rw [dropStaged_of_empty hempty], dropStaged_staged _, rfl, rfl⟩
  rw [regByte_dropStaged hstaged]
  exact ⟨fun hclock => if_pos hclock, fun hram => if_neg (Nat.not_le.mpr hram)⟩

end Sys2Proof.Proofs

/-! PROOFS. The record codec (44_record_codec.md R170 to R184): the two digits of a byte, a BCD field within its byte, the eight
setters with their accessors, and the whole record. -/

namespace Sys2Proof.Machine

open Sys2Proof

/-! ### BCD arithmetic (R170, R171) -/

/-- The byte that `bcdEnc` gives is told by its value: tens digit times 16, plus units digit. -/
theorem bcdEnc_eq_some_iff {n : Nat} {d : Byte} : bcdEnc n = some d ↔ n ≤ 99 ∧ d.toNat = n / 10 * 16 + n % 10 := by
  by_cases hn : n ≤ 99
  · have hvalue : (BitVec.ofNat 8 (n / 10) <<< 4 ||| BitVec.ofNat 8 (n % 10)).toNat = n / 10 * 16 + n % 10 := by
      have htens : (n / 10) <<< 4 < 2 ^ 8 := by rw [Nat.shiftLeft_eq]; omega
      have hor := Nat.shiftLeft_add_eq_or_of_lt (i := 4) (b := n % 10) (by omega) (n / 10)
      rw [BitVec.toNat_or, BitVec.toNat_shiftLeft, BitVec.toNat_ofNat, BitVec.toNat_ofNat, Nat.mod_eq_of_lt (by omega : n / 10 < 2 ^ 8),
        Nat.mod_eq_of_lt (by omega : n % 10 < 2 ^ 8), Nat.mod_eq_of_lt htens, ← hor, Nat.shiftLeft_eq]
    simp only [bcdEnc, hn, if_true, true_and, Option.some.injEq, ← hvalue, BitVec.toNat_inj, eq_comm]
  · simp [bcdEnc, hn]

theorem bcdEnc_isSome_iff {n : Nat} : (bcdEnc n).isSome ↔ n ≤ 99 := by
  simp [bcdEnc]

theorem bcdDec_eq (b : Byte) : bcdDec b = b.toNat / 16 * 10 + b.toNat % 16 := by
  have hb := b.isLt
  simp only [bcdDec, BitVec.extractLsb'_toNat, Nat.shiftRight_eq_div_pow]
  omega

theorem bcdDec_of_bcdEnc {n : Nat} {d : Byte} (h : bcdEnc n = some d) : bcdDec d = n := by
  obtain ⟨hn, hd⟩ := bcdEnc_eq_some_iff.mp h
  rw [bcdDec_eq, hd]
  omega

/-! ### A field within its byte -/

/-- A mask of the low bits keeps a value that they hold. -/
theorem and_mask_of_le {d mask : Byte} {width : Nat} (hmask : mask.toNat + 1 = 2 ^ width) (h : d.toNat ≤ mask.toNat) :
    d &&& mask = d := by
  apply BitVec.eq_of_toNat_eq
  rw [BitVec.toNat_and, Nat.eq_sub_of_add_eq hmask, Nat.and_two_pow_sub_one_eq_mod, Nat.mod_eq_of_lt (by omega)]

/-- A mask does not see the part of a byte that lies outside it. -/
theorem or_and_of_apart {rest field mask : Byte} (h : rest &&& mask = 0) : (rest ||| field) &&& mask = field &&& mask := by
  rw [BitVec.and_comm, BitVec.and_or_distrib_left, BitVec.and_comm mask, BitVec.and_comm mask, h]
  exact BitVec.zero_or

/-- How a BCD field with values up to `hi` lies in its byte: in the low bits, which `mask` selects, apart from the reserved bits
`keep`. -/
structure BcdField (keep mask : Byte) (width hi : Nat) : Prop where
  hi_le : hi ≤ 99
  low : mask.toNat + 1 = 2 ^ width
  apart : keep &&& mask = 0
  fits : hi / 10 * 16 + hi % 10 ≤ mask.toNat

/-- A setter of a BCD field has a result on the field's domain alone (R181). -/
theorem setField_isSome_iff {old keep mask : Byte} {width lo hi n : Nat} (hfield : BcdField keep mask width hi) :
    (setField old keep lo hi n).isSome ↔ lo ≤ n ∧ n ≤ hi := by
  have hhi := hfield.hi_le
  by_cases hn : lo ≤ n ∧ n ≤ hi
  · simpa [setField, hn, bcdEnc_isSome_iff] using hn.2.trans hhi
  · simp [setField, hn]

/-- The byte of a BCD field: the reserved bits of the old byte over the digits, which lie in the field's own bits. -/
theorem eq_of_setField {old keep mask b : Byte} {width lo hi n : Nat} (hfield : BcdField keep mask width hi)
    (h : setField old keep lo hi n = some b) :
    ∃ d, bcdEnc n = some d ∧ d &&& mask = d ∧ b = old &&& keep ||| d := by
  by_cases hn : lo ≤ n ∧ n ≤ hi
  · simp only [setField, hn, and_self, if_true, Option.map_eq_some_iff] at h
    obtain ⟨d, hd, rfl⟩ := h
    have hvalue : d.toNat ≤ mask.toNat := by
      obtain ⟨-, hdigits⟩ := bcdEnc_eq_some_iff.mp hd
      have hfits := hfield.fits
      omega
    exact ⟨d, hd, and_mask_of_le hfield.low hvalue, rfl⟩
  · simp [setField, hn] at h

section
variable {old keep mask b : Byte} {width lo hi n : Nat} (hfield : BcdField keep mask width hi) (h : setField old keep lo hi n = some b)
include hfield h

/-- A BCD field reads back as the value set (R171, R181). -/
theorem bcdDec_of_setField : bcdDec (b &&& mask) = n := by
  obtain ⟨d, hd, hfits, rfl⟩ := eq_of_setField hfield h
  have hrest : old &&& keep &&& mask = 0 := by rw [BitVec.and_assoc, hfield.apart]; exact BitVec.and_zero
  rw [or_and_of_apart hrest, hfits]
  exact bcdDec_of_bcdEnc hd

/-- A setter keeps the reserved bits of the old byte (R181). -/
theorem and_keep_of_setField : b &&& keep = old &&& keep := by
  obtain ⟨d, -, hfits, rfl⟩ := eq_of_setField hfield h
  have hd : d &&& keep = 0 := by
    rw [← hfits, BitVec.and_assoc, BitVec.and_comm mask, hfield.apart]
    exact BitVec.and_zero
  rw [BitVec.or_comm, or_and_of_apart hd, BitVec.and_assoc, BitVec.and_self]

/-- A bit that is neither of the field nor reserved is 0. -/
theorem getLsbD_of_setField {i : Nat} (hmask : mask.getLsbD i = false) (hkeep : keep.getLsbD i = false) :
    b.getLsbD i = false := by
  obtain ⟨d, -, hfits, rfl⟩ := eq_of_setField hfield h
  have hout : d.getLsbD i = false := by rw [← hfits, BitVec.getLsbD_and, hmask, Bool.and_false]
  rw [BitVec.getLsbD_or, BitVec.getLsbD_and, hkeep, hout, Bool.and_false, Bool.or_false]

end

/-! ### The layout of each BCD field (R172, R181) -/

theorem secondsField : BcdField 0 0x7F 7 59 := ⟨by decide, by decide, by decide, by decide⟩
theorem minutesField : BcdField 0x80 0x7F 7 59 := ⟨by decide, by decide, by decide, by decide⟩
theorem hour24Field : BcdField 0x40 0x3F 6 23 := ⟨by decide, by decide, by decide, by decide⟩
theorem hour12Field : BcdField 0x40 0x1F 5 12 := ⟨by decide, by decide, by decide, by decide⟩
theorem dayOfMonthField : BcdField 0xC0 0x3F 6 31 := ⟨by decide, by decide, by decide, by decide⟩
theorem monthField : BcdField 0xE0 0x1F 5 12 := ⟨by decide, by decide, by decide, by decide⟩
theorem yearField : BcdField 0 0xFF 8 99 := ⟨by decide, by decide, by decide, by decide⟩

/-! ### The domain of each setter (R181) -/

section
variable (old : Byte) (n : Nat)

theorem setSeconds_isSome_iff (ch : Bool) : (setSeconds old n ch).isSome ↔ n ≤ 59 := by
  rw [setSeconds, Option.isSome_map, setField_isSome_iff secondsField]
  exact and_iff_right n.zero_le

theorem setMinutes_isSome_iff : (setMinutes old n).isSome ↔ n ≤ 59 :=
  (setField_isSome_iff minutesField).trans (and_iff_right n.zero_le)

theorem setHour24_isSome_iff : (setHour old (.hour24 n)).isSome ↔ n ≤ 23 :=
  (setField_isSome_iff hour24Field).trans (and_iff_right n.zero_le)

theorem setHour12_isSome_iff (m : Meridiem) : (setHour old (.hour12 n m)).isSome ↔ 1 ≤ n ∧ n ≤ 12 := by
  rw [setHour, Option.isSome_map]
  exact setField_isSome_iff hour12Field

theorem setDayOfMonth_isSome_iff : (setDayOfMonth old n).isSome ↔ 1 ≤ n ∧ n ≤ 31 :=
  setField_isSome_iff dayOfMonthField

theorem setMonth_isSome_iff : (setMonth old n).isSome ↔ 1 ≤ n ∧ n ≤ 12 :=
  setField_isSome_iff monthField

theorem setDayOfWeek_isSome_iff : (setDayOfWeek old n).isSome ↔ 1 ≤ n ∧ n ≤ 7 := by
  simp [setDayOfWeek]

theorem setYear_isSome_iff : (setYear old n).isSome ↔ n ≤ 99 :=
  (setField_isSome_iff yearField).trans (and_iff_right n.zero_le)

end

/-! ### What each setter's byte reads back as, and what it keeps of the old byte (R173 to R181)

The byte set is named as the record's own, as an encoded record has it. -/

section
variable {old : Byte} {n : Nat} {r : ClockRecord}

theorem read_of_setSeconds {ch : Bool} (h : setSeconds old n ch = some r.byte0) : secondsOf r = n ∧ clockHaltOf r = ch := by
  obtain ⟨b, hset, hbyte⟩ := Option.map_eq_some_iff.mp h
  have hvalue : bcdDec (b &&& 0x7F) = n := bcdDec_of_setField secondsField hset
  have hhalt : b.getLsbD 7 = false := getLsbD_of_setField secondsField hset (by decide) (by decide)
  constructor
  · rw [secondsOf, ← hbyte, or_and_of_apart (by cases ch <;> decide), hvalue]
  · rw [clockHaltOf, ← hbyte, BitVec.getLsbD_or, hhalt]
    cases ch <;> rfl

theorem read_of_setMinutes (h : setMinutes old n = some r.byte1) : minutesOf r = n ∧ r.byte1 &&& 0x80 = old &&& 0x80 :=
  ⟨bcdDec_of_setField minutesField h, and_keep_of_setField minutesField h⟩

theorem read_of_setHour24 (h : setHour old (.hour24 n) = some r.byte2) :
    hourOf r = .hour24 n ∧ r.byte2 &&& 0x40 = old &&& 0x40 := by
  have hview : r.byte2.getLsbD 7 = false := getLsbD_of_setField hour24Field h (by decide) (by decide)
  have hvalue : bcdDec (r.byte2 &&& 0x3F) = n := bcdDec_of_setField hour24Field h
  exact ⟨by rw [hourOf, hview, if_neg Bool.false_ne_true, hvalue], and_keep_of_setField hour24Field h⟩

theorem read_of_setHour12 {m : Meridiem} (h : setHour old (.hour12 n m) = some r.byte2) :
    hourOf r = .hour12 n m ∧ r.byte2 &&& 0x40 = old &&& 0x40 := by
  obtain ⟨b, hset, hbyte⟩ := Option.map_eq_some_iff.mp h
  have hvalue : bcdDec (b &&& 0x1F) = n := bcdDec_of_setField hour12Field hset
  have hkeep : b &&& 0x40 = old &&& 0x40 := and_keep_of_setField hour12Field hset
  have hhalf : b.getLsbD 5 = false := getLsbD_of_setField hour12Field hset (by decide) (by decide)
  have hflags : (0x80 ||| if m = .pm then 0x20 else 0) ||| b = r.byte2 := by rw [BitVec.or_comm, ← BitVec.or_assoc, hbyte]
  have hview : r.byte2.getLsbD 7 = true := by rw [← hflags]; cases m <;> simp
  have hpm : r.byte2.getLsbD 5 = decide (m = .pm) := by
    rw [← hflags, BitVec.getLsbD_or, hhalf]
    cases m <;> rfl
  constructor
  · rw [hourOf, hview, if_pos rfl, hpm, ← hflags, or_and_of_apart (by cases m <;> decide), hvalue]
    cases m <;> rfl
  · rw [← hflags, or_and_of_apart (by cases m <;> decide), hkeep]

theorem read_of_setHour {hour : Hour} (h : setHour old hour = some r.byte2) :
    hourOf r = hour ∧ r.byte2 &&& 0x40 = old &&& 0x40 := by
  cases hour with
  | hour24 _ => exact read_of_setHour24 h
  | hour12 _ _ => exact read_of_setHour12 h

theorem read_of_setDayOfMonth (h : setDayOfMonth old n = some r.byte3) :
    dayOfMonthOf r = n ∧ r.byte3 &&& 0xC0 = old &&& 0xC0 :=
  ⟨bcdDec_of_setField dayOfMonthField h, and_keep_of_setField dayOfMonthField h⟩

theorem read_of_setMonth (h : setMonth old n = some r.byte4) : monthOf r = n ∧ r.byte4 &&& 0xE0 = old &&& 0xE0 :=
  ⟨bcdDec_of_setField monthField h, and_keep_of_setField monthField h⟩

theorem read_of_setDayOfWeek (h : setDayOfWeek old n = some r.byte5) :
    dayOfWeekOf r = n ∧ r.byte5 &&& 0xF8 = old &&& 0xF8 := by
  have hn : 1 ≤ n ∧ n ≤ 7 := (setDayOfWeek_isSome_iff old n).mp (by rw [h]; rfl)
  have hbyte : old &&& 0xF8 ||| BitVec.ofNat 8 n = r.byte5 := by simpa [setDayOfWeek, hn] using h
  have hvalue : (BitVec.ofNat 8 n).toNat = n := by rw [BitVec.toNat_ofNat]; omega
  have hfits : BitVec.ofNat 8 n &&& 0x07 = BitVec.ofNat 8 n :=
    and_mask_of_le (width := 3) (by decide) (hvalue.trans_le hn.2)
  have hrest : old &&& 0xF8 &&& 0x07 = 0 := by rw [BitVec.and_assoc]; exact BitVec.and_zero
  have hapart : BitVec.ofNat 8 n &&& 0xF8 = 0 := by rw [← hfits, BitVec.and_assoc]; exact BitVec.and_zero
  constructor
  · rw [dayOfWeekOf, ← hbyte, or_and_of_apart hrest, hfits, hvalue]
  · rw [← hbyte, BitVec.or_comm, or_and_of_apart hapart, BitVec.and_assoc, BitVec.and_self]

theorem read_of_setYear (h : setYear old n = some r.byte6) : yearOf r = n := by
  have hwhole : r.byte6 &&& 0xFF = r.byte6 := and_mask_of_le (width := 8) (by decide) (Nat.le_of_lt_succ r.byte6.isLt)
  rw [yearOf, ← hwhole]
  exact bcdDec_of_setField yearField h

theorem read_of_setWriteProtect {wp : Bool} (h : setWriteProtect old wp = r.byte7) :
    writeProtectOf r = wp ∧ r.byte7 &&& 0x7F = old &&& 0x7F := by
  rw [writeProtectOf, ← h, setWriteProtect]
  constructor
  · cases wp <;> simp
  · rw [BitVec.or_comm, or_and_of_apart (by cases wp <;> decide), BitVec.and_assoc, BitVec.and_self]

end

/-! ### The whole record (R183, R184) -/

/-- A record encodes to the bytes that the setters give, each from its own field and its own old byte. -/
theorem encodeFields_eq_some_iff {old r : ClockRecord} {f : ClockFields} :
    encodeFields old f = some r ↔
      setSeconds old.byte0 f.seconds f.clockHalt = some r.byte0 ∧ setMinutes old.byte1 f.minutes = some r.byte1 ∧
      setHour old.byte2 f.hour = some r.byte2 ∧ setDayOfMonth old.byte3 f.dayOfMonth = some r.byte3 ∧
      setMonth old.byte4 f.month = some r.byte4 ∧ setDayOfWeek old.byte5 f.dayOfWeek = some r.byte5 ∧
      setYear old.byte6 f.year = some r.byte6 ∧ setWriteProtect old.byte7 f.writeProtect = r.byte7 := by
  unfold encodeFields
  split
  next h0 h1 h2 h3 h4 h5 h6 =>
    cases r
    simp [h0, h1, h2, h3, h4, h5, h6]
  next hnone =>
    refine iff_of_false (by simp) ?_
    rintro ⟨h0, h1, h2, h3, h4, h5, h6, -⟩
    exact hnone _ _ _ _ _ _ _ h0 h1 h2 h3 h4 h5 h6

/-- Each field is checked alone, with no calendar check (R183). -/
theorem encodeFields_isSome_iff {old : ClockRecord} {f : ClockFields} :
    (encodeFields old f).isSome ↔
      (setSeconds old.byte0 f.seconds f.clockHalt).isSome ∧ (setMinutes old.byte1 f.minutes).isSome ∧
      (setHour old.byte2 f.hour).isSome ∧ (setDayOfMonth old.byte3 f.dayOfMonth).isSome ∧
      (setMonth old.byte4 f.month).isSome ∧ (setDayOfWeek old.byte5 f.dayOfWeek).isSome ∧
      (setYear old.byte6 f.year).isSome := by
  simp only [Option.isSome_iff_exists, encodeFields_eq_some_iff]
  constructor
  · rintro ⟨r, h0, h1, h2, h3, h4, h5, h6, -⟩
    exact ⟨⟨_, h0⟩, ⟨_, h1⟩, ⟨_, h2⟩, ⟨_, h3⟩, ⟨_, h4⟩, ⟨_, h5⟩, _, h6⟩
  · rintro ⟨⟨b0, h0⟩, ⟨b1, h1⟩, ⟨b2, h2⟩, ⟨b3, h3⟩, ⟨b4, h4⟩, ⟨b5, h5⟩, b6, h6⟩
    exact ⟨⟨b0, b1, b2, b3, b4, b5, b6, _⟩, h0, h1, h2, h3, h4, h5, h6, rfl⟩

end Sys2Proof.Machine

namespace Sys2Proof.Proofs

open Sys2Proof Sys2Proof.Machine

/-- Settles O58: the digits of a number below 100 are a byte's two nibbles, and the arithmetic of the nibbles undoes them. -/
theorem bcdRoundTrip : Obligations.BcdRoundTrip := by
  refine ⟨fun n => ⟨fun hn => ?_, fun hn => ?_⟩, fun b => ⟨bcdDec_eq b, ?_⟩⟩
  · obtain ⟨b, hb⟩ := Option.isSome_iff_exists.mp (bcdEnc_isSome_iff.mpr hn)
    exact ⟨b, hb, (bcdEnc_eq_some_iff.mp hb).2, bcdDec_of_bcdEnc hb⟩
  · exact Option.not_isSome_iff_eq_none.mp (mt bcdEnc_isSome_iff.mp (Nat.not_le.mpr hn))
  · have hb := b.isLt
    rw [bcdDec_eq]
    omega

/-- Settles O59: each setter's domain and what its byte reads back as, a setter at a time. -/
theorem settersKeepReservedBits : Obligations.SettersKeepReservedBits := by
  intro r n ch wp m
  simp only [← Option.isSome_iff_exists]
  exact ⟨setSeconds_isSome_iff _ n ch, fun _ h => read_of_setSeconds h,
    setMinutes_isSome_iff _ n, fun _ h => read_of_setMinutes h,
    setHour24_isSome_iff _ n, fun _ h => read_of_setHour h,
    setHour12_isSome_iff _ n m, fun _ h => read_of_setHour h,
    setDayOfMonth_isSome_iff _ n, fun _ h => read_of_setDayOfMonth h,
    setMonth_isSome_iff _ n, fun _ h => read_of_setMonth h,
    setDayOfWeek_isSome_iff _ n, fun _ h => read_of_setDayOfWeek h,
    setYear_isSome_iff _ n, fun _ h => read_of_setYear h,
    read_of_setWriteProtect rfl⟩

/-- Settles O60: a record encodes when each of its bytes does, and each byte of an encoded record reads back as its own field. -/
theorem decodeOfEncodedRecord : Obligations.DecodeOfEncodedRecord := by
  intro old f
  refine ⟨?_, fun r h => ?_⟩
  · simp only [← Option.isSome_iff_exists, encodeFields_isSome_iff, setSeconds_isSome_iff, setMinutes_isSome_iff,
      setDayOfMonth_isSome_iff, setMonth_isSome_iff, setDayOfWeek_isSome_iff, setYear_isSome_iff]
    cases f.hour with
    | hour24 v => rw [setHour24_isSome_iff]
    | hour12 v m => rw [setHour12_isSome_iff]
  · obtain ⟨h0, h1, h2, h3, h4, h5, h6, h7⟩ := encodeFields_eq_some_iff.mp h
    rw [decodeFields, (read_of_setSeconds h0).1, (read_of_setSeconds h0).2, (read_of_setMinutes h1).1, (read_of_setHour h2).1,
      (read_of_setDayOfMonth h3).1, (read_of_setMonth h4).1, (read_of_setDayOfWeek h5).1, read_of_setYear h6,
      (read_of_setWriteProtect h7).1]

end Sys2Proof.Proofs

/-! PROOFS. The peripheral's own rules (60_exceptions.md R205 to R207, R217, R221 to R223): the responder edge by edge and at its command
byte, the chip's clock before a transaction, and the peripheral that an abort leaves. -/

namespace Sys2Proof.Machine

open Sys2Proof

/-! ### The responder at an edge -/

theorem enable_responder {p : Periph} (hk : p.kind = .responder) : p.enable = { p with mode := .cmd, nbits := 0 } := by
  simp [Periph.enable, hk]

/-- A peripheral that takes no bits in does nothing at a rising edge (R222). -/
theorem rise_other {p : Periph} (hm : p.mode = .rdata ∨ p.mode = .ignore ∨ p.mode = .off) (level : Bool) :
    p.rise level = p := by
  rcases hm with hm | hm | hm
  · exact rise_rdata hm level
  all_goals cases hk : p.kind <;> simp [Periph.rise, hk, hm]

/-- A data byte at the responder goes to the register at the pointer, below the limit, and a burst's pointer moves on (R222). -/
theorem responderByteIn_eq (p : Periph) :
    p.responderByteIn = { p with
      store := if p.ptr < p.limit then Cells.write p.store (cellOf p.rc p.ptr) p.shift else p.store,
      ptr := if p.burst then p.ptr + 1 else p.ptr } := by
  rw [Periph.responderByteIn, advancePtr_eq]
  split <;> rfl

/-- With its last bit a data byte takes effect at the responder (R222). -/
theorem rise_responder_last {p : Periph} (hk : p.kind = .responder) (hm : p.mode = .wdata) (hn : p.nbits = 7)
    (level : Bool) : p.rise level = { p with
      shift := setBit p.shift 7 level, nbits := 0,
      store := if p.ptr < p.limit then Cells.write p.store (cellOf p.rc p.ptr) (setBit p.shift 7 level) else p.store,
      ptr := if p.burst then p.ptr + 1 else p.ptr } := by
  rw [rise_last_data (by rw [hk]; decide) hm hn, byteIn_responder (p := p.shiftIn level) hk, responderByteIn_eq,
    Periph.shiftIn, hn]
  rfl

/-- The byte that the responder sends is the register at its pointer: it masks nothing and freezes nothing (R223). -/
theorem outByte_responder {p : Periph} (hk : p.kind = .responder) : p.outByte = p.regByte (cellOf p.rc p.ptr) := by
  simp [Periph.outByte, Periph.readByte, hk]

/-- Past the limit a peripheral in a read's data phase stops driving, and counts on (R223). -/
theorem fall_past_limit {p : Periph} (hk : p.kind ≠ .absent) (hm : p.mode = .rdata) (hp : ¬p.ptr < p.limit) :
    p.fall = Periph.countOut { p with drive := false } := by
  cases hkind : p.kind
  case absent => exact absurd hkind hk
  all_goals simp [Periph.fall, hkind, hm, hp]

theorem fall_responder_rdata {p : Periph} (hk : p.kind = .responder) (hm : p.mode = .rdata) :
    p.fall = { p with
      drive := decide (p.ptr < p.limit),
      driveBit := if p.ptr < p.limit then (p.regByte (cellOf p.rc p.ptr)).getLsbD p.nbits else p.driveBit,
      nbits := if p.nbits + 1 = 8 then 0 else p.nbits + 1,
      ptr := if p.nbits + 1 = 8 ∧ p.burst = true then p.ptr + 1 else p.ptr } := by
  have hpresent : p.kind ≠ .absent := by rw [hk]; decide
  by_cases hp : p.ptr < p.limit
  · rw [fall_sending ⟨hpresent, hm, hp⟩, countOut_eq, outByte_responder hk]
    simp [hk, hp]
  · rw [fall_past_limit hpresent hm hp, countOut_eq]
    simp [hk, hp]

/-- In the other modes a falling edge does nothing to the responder (R223). -/
theorem fall_responder_other {p : Periph} (hk : p.kind = .responder) (hm : p.mode ≠ .rdata) : p.fall = p := by
  cases hmode : p.mode
  case rdata => exact absurd hmode hm
  all_goals simp [Periph.fall, hk, hmode]

/-! ### The responder at its command byte -/

/-- Bit 0 is no part of the subspace or of the index (R83). -/
theorem fields_without_bitZero (c : Byte) :
    commandSpace (c &&& 0xFE) = commandSpace c ∧ commandIndex (c &&& 0xFE) = commandIndex c := by
  revert c
  decide

/-- The default map gives each RAM byte the command byte with its number in the index field (R34, R62). -/
theorem fields_ram {n : Nat} (hn : n < 31) :
    commandSpace (Config.regMap.ram n) = true ∧ commandIndex (Config.regMap.ram n) = BitVec.ofNat 5 n := by
  revert n
  decide

/-- Under the default map the fields of a row's write form are where its command is taken (R34, R83). -/
theorem exec_make_default {r : CommandRow} (hr : r ∈ commandTable Config.regMap) (read : Bool) (s : State) :
    exec (r.make read) s = takeCommand (commandSpace r.writeForm) (commandIndex r.writeForm).toNat read s := by
  rcases mem_commandTable.mp hr with hr | hr | hr
  · simp only [clockRows, List.mem_cons, List.not_mem_nil, or_false] at hr
    rcases hr with rfl | rfl | rfl | rfl | rfl | rfl | rfl | rfl | rfl <;> cases read <;> rfl
  · obtain ⟨n, hn, rfl⟩ := List.mem_map.mp hr
    obtain ⟨hspace, hindex⟩ := fields_ram (List.mem_range.mp hn)
    rw [hspace, hindex]
    cases read <;> rfl
  · simp only [burstRows, List.mem_cons, List.not_mem_nil, or_false] at hr
    rcases hr with rfl | rfl <;> cases read <;> rfl

/-- Under the default map a command byte that decodes is taken by its fields (R83, R222). -/
theorem exec_of_defaultMap {c : Byte} {i : Instr} (h : decodeCommand Config.regMap c = .ok i) (s : State) :
    exec i s = takeCommand (commandSpace c) (commandIndex c).toNat (commandIsRead c) s := by
  obtain ⟨r, hr, hform, rfl⟩ := decodeCommand_eq_ok h
  obtain ⟨hspace, hindex⟩ := fields_without_bitZero c
  rw [exec_make_default hr, hform, hspace, hindex]
  rfl

/-- Taking a command, the responder freezes nothing (R222). -/
theorem takeCommand_responder {p : Periph} (hk : p.kind = .responder) (rc : Bool) (index : Nat) (isRead : Bool) :
    p.takeCommand rc index isRead = { p with
      nbits := 0, rc := rc, burst := decide (index = 31), ptr := if index = 31 then 0 else index,
      mode := if isRead then .rdata else .wdata } := by
  have hfrozen : (p.kind == .chip && isRead && !rc && index == 31) = false := by simp [hk]
  rw [Periph.takeCommand, hfrozen]
  rfl

/-- What R222 says that no register and no burst of the default map answers to. -/
theorem not_validAddr_default (c : Byte) : validAddr Config.regMap c = false ↔
    (c.getLsbD 7 = false ∨
      (c.getLsbD 6 = false ∧ 9 ≤ (c.extractLsb' 1 5).toNat ∧ (c.extractLsb' 1 5).toNat ≤ 30)) := by
  revert c
  decide

/-- A command byte that names nothing is the turn's, where no request is answered. -/
theorem turn_eq_badCommand {s : State} {e : DecodeError} (hrst : s.rst = false)
    (hreq : s.reqReady = false ∨ s.port.valid = false) (hc : s.periph.commandReady = true)
    (hd : decodeCommand s.commandMap s.periph.shift = .error e) : s.turn = .badCommand := by
  have hnone : (s.reqReady && s.port.valid) = false := by rcases hreq with h | h <;> simp [h]
  simp [State.turn, hrst, hnone, hc, hd]

/-- A complete command byte is taken by the next step that answers no request: a byte that names nothing has the rest ignored, any other is
taken by its fields (R222, log 1). -/
theorem step_responder_command {s : State} (hk : s.periph.kind = .responder) (hrst : s.rst = false)
    (hm : s.periph.mode = .cmd) (hn : s.periph.nbits = 8) (hreq : s.reqReady = false ∨ s.port.valid = false) :
    ∃ t, step s = .next t ∧ t.periph =
      if validAddr Config.regMap s.periph.shift then
        s.periph.takeCommand (commandSpace s.periph.shift) (commandIndex s.periph.shift).toNat (commandIsRead s.periph.shift)
      else s.periph.ignoreCommand := by
  have hpresent : s.periph.kind ≠ .absent := by rw [hk]; decide
  have hready : s.periph.commandReady = true := (commandReady_iff _).mpr ⟨hm, hn, hpresent⟩
  have hmap : s.commandMap = Config.regMap := by simp [State.commandMap, hk]
  cases hv : validAddr Config.regMap s.periph.shift
  · obtain ⟨e, he⟩ : ∃ e, decodeCommand Config.regMap s.periph.shift = .error e := by
      cases hd : decodeCommand Config.regMap s.periph.shift with
      | error e => exact ⟨e, rfl⟩
      | ok i => exact absurd ((validAddr_iff_decodes _ _).mpr ⟨i, hd⟩) (by rw [hv]; decide)
    refine ⟨hostTurn false { s with periph := s.periph.ignoreCommand }, ?_, hostTurn_periph _ _⟩
    rw [step, turn_eq_badCommand hrst hreq hready (hmap ▸ he)]
    simp [State.badCommand, hk]
  · obtain ⟨i, hi⟩ := (validAddr_iff_decodes _ _).mp hv
    rw [step, turn_eq_command hrst hreq hready (hmap ▸ hi)]
    rcases takeCommand_cases (commandSpace s.periph.shift) (commandIndex s.periph.shift).toNat
      (commandIsRead s.periph.shift) s with ⟨habsent, -⟩ | ⟨-, htake⟩
    · exact absurd habsent hpresent
    · refine ⟨hostTurn false { s with periph := s.periph.takeCommand _ _ _ }, ?_, hostTurn_periph _ _⟩
      simp only [exec_of_defaultMap hi, htake, mapNext_next]

/-! ### The chip's clock -/

/-- CE rises at the chip: its time registers may advance, and no other register changes (R217). -/
theorem regByte_enable_chip {p : Periph} (hk : p.kind = .chip) (a : Nat) :
    p.enable.regByte a =
      if a < 7 then (if Config.clockAdvances (p.txn + 1) a then Config.freeByte .clock (p.txn + 1) a else p.regByte a)
      else p.regByte a := by
  have hput := regByte_putAll { p with txn := p.txn + 1 } timeCells
    (fun a => if Config.clockAdvances (p.txn + 1) a then Config.freeByte .clock (p.txn + 1) a else p.regByte a) a
  simp only [timeCells, List.mem_range] at hput
  simp only [Periph.enable, hk]
  exact hput

/-! ### The peripheral after an abort -/

/-- Every protocol field and every register is a draw: the `n`-th ones, and those of the epoch (R207, log 17). -/
def Periph.Lost (n epoch : Nat) (p : Periph) : Prop :=
  p.mode = PeriphMode.ofDraw (Config.freeByte .aborted n 0) ∧
  p.nbits = (Config.freeByte .aborted n 1).toNat % 9 ∧ p.shift = Config.freeByte .aborted n 2 ∧
  p.rc = (Config.freeByte .aborted n 3).getLsbD 0 ∧ p.burst = (Config.freeByte .aborted n 4).getLsbD 0 ∧
  p.ptr = (Config.freeByte .aborted n 5).toNat % (if p.rc then 31 else 9) ∧
  p.drive = (Config.freeByte .aborted n 6).getLsbD 0 ∧ p.driveBit = (Config.freeByte .aborted n 7).getLsbD 0 ∧
  (∀ a, p.regByte a = Config.freeByte .unwritten epoch a) ∧ p.snapshot = [] ∧ p.staged = []

theorem scramble_lost {p : Periph} (hk : p.kind ≠ .absent) (n : Nat) : (p.scramble n).Lost n (p.epoch + 1) := by
  unfold Periph.scramble
  split
  · rename_i habsent
    exact absurd habsent hk
  all_goals
    refine ⟨rfl, rfl, rfl, rfl, rfl, ?_, rfl, rfl, fun _ => rfl, rfl, rfl⟩
    simp only
    split <;> rfl

/-! ### Which device it is, through every event -/

/-- `q` is the same device as `p`, its unwritten registers the same free values: what an abort's draws go by. -/
structure Periph.SameDevice (p q : Periph) : Prop where
  kind  : q.kind = p.kind
  epoch : q.epoch = p.epoch

theorem advancePtr_sameDevice {p q : Periph} (h : p.SameDevice q) : p.SameDevice q.advancePtr := by
  rw [advancePtr_eq]
  exact ⟨h.kind, h.epoch⟩

theorem writeReg_sameDevice (p : Periph) (a : Nat) (v : Byte) : p.SameDevice (p.writeReg a v) := by
  obtain ⟨m, h⟩ := writeReg_frame p a v
  rw [h]
  exact ⟨rfl, rfl⟩

theorem enable_sameDevice (p : Periph) : p.SameDevice p.enable := by
  unfold Periph.enable
  split
  · obtain ⟨m, h⟩ := putAll_frame { p with txn := p.txn + 1 } timeCells _
    rw [Periph.advanceClock, h]
    exact ⟨rfl, rfl⟩
  all_goals exact ⟨rfl, rfl⟩

theorem disable_sameDevice (p : Periph) : p.SameDevice p.disable := by
  unfold Periph.disable Periph.dropStaged
  split
  · split
    · exact ⟨rfl, rfl⟩
    · obtain ⟨m, h⟩ := putAll_frame p clockCells (Config.freeByte .cutShort p.txn)
      rw [h]
      exact ⟨rfl, rfl⟩
  all_goals exact ⟨rfl, rfl⟩

theorem commitStaged_sameDevice (p : Periph) : p.SameDevice p.commitStaged := by
  obtain ⟨m, h⟩ := putAll_frame p (List.range Config.clockBurstLen) p.committedByte
  rw [commitStaged_eq, h]
  exact ⟨rfl, rfl⟩

theorem chipByteIn_sameDevice (p : Periph) : p.SameDevice p.chipByteIn := by
  unfold Periph.chipByteIn
  split
  · split
    · split
      · exact advancePtr_sameDevice (writeReg_sameDevice p _ _)
      · refine advancePtr_sameDevice ?_
        split
        · obtain ⟨hkind, hepoch⟩ := commitStaged_sameDevice { p with staged := Cells.write p.staged p.ptr p.shift }
          exact ⟨hkind, hepoch⟩
        · exact ⟨rfl, rfl⟩
    · exact ⟨rfl, rfl⟩
  · obtain ⟨hkind, hepoch⟩ := writeReg_sameDevice p (cellOf p.rc p.ptr) p.shift
    exact ⟨hkind, hepoch⟩

theorem byteIn_sameDevice (p : Periph) : p.SameDevice p.byteIn := by
  unfold Periph.byteIn
  split
  · obtain ⟨hkind, hepoch⟩ := chipByteIn_sameDevice { p with nbits := 0 }
    exact ⟨hkind, hepoch⟩
  · rw [responderByteIn_eq]
    exact ⟨rfl, rfl⟩
  · exact ⟨rfl, rfl⟩

theorem rise_sameDevice (p : Periph) (level : Bool) : p.SameDevice (p.rise level) := by
  unfold Periph.rise
  split
  case h_3 =>
    split
    · obtain ⟨hkind, hepoch⟩ := byteIn_sameDevice (p.shiftIn level)
      exact ⟨hkind, hepoch⟩
    · exact ⟨rfl, rfl⟩
  case h_2 => split <;> exact ⟨rfl, rfl⟩
  all_goals exact ⟨rfl, rfl⟩

theorem fall_sameDevice (p : Periph) : p.SameDevice p.fall := by
  rcases fall_frame p with h | ⟨_, _, _, _, _, h, -⟩ <;> rw [h] <;> exact ⟨rfl, rfl⟩

theorem applyEvent_sameDevice (e : Event) (s : State) : s.periph.SameDevice (applyEvent e s).periph := by
  cases e with
  | ce b =>
    cases b
    · exact disable_sameDevice _
    · exact enable_sameDevice _
  | clk b =>
    simp only [applyEvent]
    split
    · exact rise_sameDevice _ _
    · split
      · exact fall_sameDevice _
      · exact ⟨rfl, rfl⟩
  | _ => exact ⟨rfl, rfl⟩

/-- With an abort recorded, an event leaves its own draws of whatever it made of the peripheral (R207). -/
theorem emit_periph_aborted {s : State} (ha : s.aborted = true) (e : Event) :
    (emit e s).periph = (applyEvent e s).periph.scramble s.draws := by
  cases e <;> simp [emit, applyEvent, State.afterAbort, ha]

end Sys2Proof.Machine

namespace Sys2Proof.Proofs

open Sys2Proof Sys2Proof.Machine

/-- Settles O33: the two driven cases, and the record as every event makes it. -/
theorem lineResolution : Obligations.LineResolution := by
  refine ⟨fun s => line_of_driven, fun s => line_of_released, fun s e hdir hdrive => ?_⟩
  rw [emit_contention_eq, hdir, hdrive]
  simp

/-- Settles O38. -/
theorem responderFollowsChipEnable : Obligations.ResponderFollowsChipEnable := by
  intro s hk ha
  exact ⟨(emit_ce_periph ha true).trans (enable_responder hk), (emit_ce_periph ha false).trans (disable_responder hk)⟩

/-- Settles O39: an edge in each mode, and the command byte as the default map reads its fields. -/
theorem responderRisingEdge : Obligations.ResponderRisingEdge := by
  refine ⟨fun s hk hclk ha => ?_, fun s hk hrst hm hn hreq => ?_⟩
  · have hpresent : s.periph.kind ≠ .absent := by rw [hk]; decide
    have hrise : (emit (.clk true) s).periph = s.periph.rise s.line := by simp [emit_clk_periph ha, hclk]
    intro p q limit
    refine ⟨fun hm hn => ?_, fun hm hn => ?_, fun hm hn => ?_, fun hm => hrise.trans (rise_other hm _)⟩
    · rcases Nat.lt_or_eq_of_le (Nat.le_of_lt_succ hn) with hn | hn
      · exact hrise.trans (rise_shift hpresent (.inl hm) hn _)
      · exact hrise.trans (rise_last_command hpresent hm hn _)
    · exact hrise.trans (rise_shift hpresent (.inr hm) hn _)
    · exact hrise.trans (rise_responder_last hk hm hn _)
  · obtain ⟨t, hstep, hperiph⟩ := step_responder_command hk hrst hm hn hreq
    have hnames := not_validAddr_default s.periph.shift
    refine ⟨t, hstep, hperiph.trans ?_⟩
    cases hv : validAddr Config.regMap s.periph.shift
    · exact (if_pos (hnames.mp hv)).symm
    · exact (takeCommand_responder hk _ _ _).trans (if_neg (mt hnames.mpr (by rw [hv]; decide))).symm

/-- Settles O40. -/
theorem responderFallingEdge : Obligations.ResponderFallingEdge := by
  intro s hk hclk ha p q limit
  have hfall : q = p.fall := by simp [q, p, emit_clk_periph ha, hclk]
  exact ⟨fun hm => hfall.trans (fall_responder_rdata hk hm), fun hm => hfall.trans (fall_responder_other hk hm)⟩

/-- Settles O49. -/
theorem clockAdvancesOnlyTheTimeRegisters : Obligations.ClockAdvancesOnlyTheTimeRegisters := by
  intro s a hk ha
  have hreg : (emit (.ce true) s).periph.regByte a = s.periph.enable.regByte a := by rw [emit_ce_periph ha]; rfl
  rw [hreg, regByte_enable_chip hk]
  exact ⟨fun hother => if_neg (Nat.not_lt.mpr hother), fun htime => if_pos htime⟩

/-- Settles O50: reset draws the peripheral that stands there, an event the one it leaves, which is the same device. -/
theorem abortedPeripheralIsInAnyState : Obligations.AbortedPeripheralIsInAnyState := by
  refine ⟨fun s hrst hphase hk => ⟨hostTurn false s.takeReset, by rw [step, turn_eq_reset hrst], ?_, ?_⟩,
    fun s e ha hk => ?_⟩
  · simp [State.takeReset, hphase]
  · have hdrawn : (hostTurn false s.takeReset).periph = s.periph.scramble s.draws := by
      simp [State.takeReset, Periph.atReset, hphase]
    rw [hdrawn]
    exact scramble_lost hk _
  · obtain ⟨hkind, hepoch⟩ := applyEvent_sameDevice e s
    have hlost := scramble_lost (hkind ▸ hk) s.draws
    rw [hepoch, ← emit_periph_aborted ha] at hlost
    exact hlost

end Sys2Proof.Proofs

/-! PROOFS. What the engine performs does not depend on the peripheral (60_exceptions.md R203): two machines that differ in the peripheral
alone differ, after a step of the sequencer, in what the data line carried from it and in nothing else. -/

namespace Sys2Proof.Machine

open Sys2Proof

/-- Whether `rx` holds a byte depends on which of its bits hold a value, not on the values. -/
theorem assemble_isSome_congr {rx rx' : Cells Bool}
    (h : ∀ k, (Cells.read rx' k).isSome = (Cells.read rx k).isSome) :
    (assemble rx').isSome = (assemble rx).isSome := by
  have hbyte : ∀ m : Cells Bool, (assemble m).isSome = true ↔ ∀ k : Fin 8, (Cells.read m k.val).isSome = true := by
    refine fun m => ⟨fun hm => ?_, assemble_isSome⟩
    by_contra hk
    obtain ⟨k, hk⟩ := not_forall.mp hk
    revert hm
    fin_cases k <;> simp_all [assemble]
  rw [Bool.eq_iff_iff, hbyte, hbyte]
  simp only [h]

/-- `t` is `s` but for the peripheral and what the line carries from it: the record of CONTENTION, the levels in `rx`, and the bytes made of
them in `buf` and `rsp_rdata`. The same bits of `rx` hold a value. -/
def State.DiffersByLine (s t : State) : Prop :=
  ∃ periph contention rx buf rspRdata,
    t = { s with periph := periph, contention := contention, rx := rx, buf := buf, rspRdata := rspRdata } ∧
      ∀ k, (Cells.read rx k).isSome = (Cells.read s.rx k).isSome

/-- The state with another peripheral on the lines. -/
def State.withPeriph (s : State) (p : Periph) : State := { s with periph := p }

@[simp] theorem withPeriph_waitCtr (s : State) (p : Periph) : (s.withPeriph p).waitCtr = s.waitCtr := rfl
@[simp] theorem withPeriph_pos (s : State) (p : Periph) : (s.withPeriph p).pos = s.pos := rfl
@[simp] theorem withPeriph_initPending (s : State) (p : Periph) : (s.withPeriph p).initPending = s.initPending := rfl
@[simp] theorem withPeriph_opInHand (s : State) (p : Periph) : (s.withPeriph p).opInHand = s.opInHand := rfl
@[simp] theorem withPeriph_operationTrace (s : State) (p : Periph) : (s.withPeriph p).operationTrace = s.operationTrace := rfl

theorem withPeriph_differsByLine (s : State) (p : Periph) : s.DiffersByLine (s.withPeriph p) :=
  ⟨p, s.contention, s.rx, s.buf, s.rspRdata, rfl, fun _ => rfl⟩

/-- An event reads of the peripheral the line's level alone, and only to SAMPLE it (R106). -/
theorem emit_differsByLine (e : Event) (s : State) (p : Periph) :
    (emit e s).DiffersByLine (emit e (s.withPeriph p)) := by
  obtain ⟨_, _, h⟩ := emit_eq e s
  obtain ⟨q, c, hp⟩ := emit_eq e (s.withPeriph p)
  rw [h, hp]
  cases e with
  | sample k =>
    refine ⟨q, c, _, _, _, rfl, fun j => ?_⟩
    simp only [applyEvent, cells_read_write]
    split <;> rfl
  | _ => exact ⟨q, c, _, _, _, rfl, fun _ => rfl⟩

/-- A delivery puts another byte in the same place, and finds as many bits of `rx` without value. -/
theorem deliver_differsByLine (d : Dest) {s t : State} (h : s.DiffersByLine t) :
    (deliver d s).DiffersByLine (deliver d t) := by
  obtain ⟨q, c, rx, buf, rdata, rfl, hrx⟩ := h
  have hheld := assemble_isSome_congr hrx
  cases d with
  | nowhere => exact ⟨q, c, rx, buf, rdata, rfl, hrx⟩
  | rdata =>
    simp only [deliver, hheld]
    exact ⟨q, c, rx, _, _, rfl, hrx⟩
  | buf k =>
    simp only [deliver, hheld]
    exact ⟨q, c, rx, _, _, rfl, hrx⟩

theorem performEntry_differsByLine (e : Entry) (s : State) (p : Periph) :
    (performEntry e s).DiffersByLine (performEntry e (s.withPeriph p)) := by
  obtain ⟨q, c, rx, buf, rdata, h, hrx⟩ := deliver_differsByLine e.dest (emit_differsByLine e.event (e.mark s) p)
  exact ⟨q, c, rx, buf, rdata, congrArg State.advance h, hrx⟩

theorem complete_withPeriph (s : State) (p : Periph) : (s.withPeriph p).complete = s.complete.withPeriph p := by
  cases hi : s.initPending
  · cases hop : s.opInHand <;> simp only [State.complete, withPeriph_initPending, withPeriph_opInHand, hi, hop] <;> rfl
  · simp only [State.complete, withPeriph_initPending, hi]
    rfl

theorem nextEvent_differsByLine (s : State) (p : Periph) : (nextEvent s).DiffersByLine (nextEvent (s.withPeriph p)) := by
  have hread : (s.withPeriph p).noteRead (s.withPeriph p).holdsOperands = (s.noteRead s.holdsOperands).withPeriph p := rfl
  simp only [nextEvent, withPeriph_operationTrace, withPeriph_pos, hread]
  cases s.operationTrace[s.pos]? with
  | some e => exact performEntry_differsByLine e _ p
  | none => exact complete_withPeriph _ p ▸ withPeriph_differsByLine _ p

/-- The sequencer reads nothing of the peripheral but the line (R203). -/
theorem sequencerStep_differsByLine (s : State) (p : Periph) :
    (sequencerStep s).DiffersByLine (sequencerStep (s.withPeriph p)) := by
  simp only [sequencerStep, withPeriph_waitCtr]
  split
  · exact withPeriph_differsByLine (s.tick _) p
  all_goals exact nextEvent_differsByLine s p

/-- An operation that writes leaves `buf` and the response data as they are (R108, R131). -/
theorem sequencerStep_writing {s : State} (h : s.opInHand.isRead = false) :
    (sequencerStep s).buf = s.buf ∧ (sequencerStep s).rspRdata = s.rspRdata ∧ (sequencerStep s).rspRbuf = s.rspRbuf := by
  rcases sequencerStep_cases s with ⟨n, -, hs⟩ | ⟨-, ⟨e, he, hs⟩ | ⟨-, hs⟩⟩ <;> rw [hs]
  · exact ⟨rfl, rfl, rfl⟩
  · have hdest := operationTrace_nowhere h e (List.mem_of_getElem? he)
    rw [performEntry, hdest]
    simp [deliver]
  · have hop : (s.noteRead s.holdsOperands).opInHand = s.opInHand := rfl
    unfold State.complete
    rw [hop]
    split
    · exact ⟨rfl, rfl, rfl⟩
    · cases hw : s.opInHand <;> rw [hw] at h
      case write | burstWriteClock | burstWriteRam => exact ⟨rfl, rfl, rfl⟩
      all_goals cases h

end Sys2Proof.Machine

namespace Sys2Proof.Proofs

open Sys2Proof Sys2Proof.Machine

/-- Settles O23: the step with the other peripheral differs by what the line carried from it, and an operation that writes takes none of it. -/
theorem sequencerDoesNotReadThePeripheral : Obligations.SequencerDoesNotReadThePeripheral := by
  intro s p a b
  have hwrite : s.opInHand.isRead = false → b.buf = a.buf ∧ b.rspRdata = a.rspRdata ∧ b.rspRbuf = a.rspRbuf := fun h => by
    obtain ⟨hbuf, hrdata, hrbuf⟩ := sequencerStep_writing h
    obtain ⟨hbuf', hrdata', hrbuf'⟩ := sequencerStep_writing (s := s.withPeriph p) h
    exact ⟨hbuf'.trans hbuf.symm, hrdata'.trans hrdata.symm, hrbuf'.trans hrbuf.symm⟩
  have hdiffers : a.DiffersByLine b := sequencerStep_differsByLine s p
  clear_value a b
  obtain ⟨_, _, _, _, _, rfl, -⟩ := hdiffers
  exact ⟨rfl, rfl, rfl, rfl, rfl, rfl, rfl, rfl, rfl, rfl, rfl, rfl, rfl, rfl, rfl, hwrite⟩

end Sys2Proof.Proofs

/-! PROOFS. Where a transaction moves CE, and the clock there (40_primitives.md R100, R101; 70_reset_and_hazards.md R247). -/

namespace Sys2Proof.Machine

open Sys2Proof

/-- CE moves only where `start` raises it and where `stop` lowers it (R100, R101). -/
theorem transaction_ce_place {cmd : Byte} {isRead : Bool} {body : List Entry} (hbody : DataPhase isRead body) {n : Nat} {e : Entry}
    {b : Bool} (he : (transaction cmd isRead body)[n]? = some e) (hce : e.event = .ce b) :
    n = 1 ∨ n + 2 = (transaction cmd isRead body).length := by
  have hlt := (List.getElem?_eq_some_iff.mp he).1
  by_contra hplace
  rw [not_or] at hplace
  obtain ⟨hstart, hstop⟩ := hplace
  obtain rfl | h2 : n = 0 ∨ 2 ≤ n := by omega
  · obtain rfl := Option.some.inj he
    cases hce
  rcases Nat.lt_or_ge n 48 with h48 | h48
  · exact (transaction_command h2 h48 he).1 b hce
  obtain hlast | hinner : n + 1 = (transaction cmd isRead body).length ∨ n + 2 < (transaction cmd isRead body).length := by omega
  · have hwait := (transaction_stop he).2 hlast
    rw [hce] at hwait
    cases hwait
  · exact (transaction_transfer hbody h48 hinner he).1 b hce

/-- Before `stop` the data phase has left the clock low (R101, R105). -/
theorem transaction_clkLow_stop {cmd : Byte} {isRead : Bool} {body : List Entry} (hbody : DataPhase isRead body) {n : Nat}
    (hn : n + 2 = (transaction cmd isRead body).length) (dout : Bool) (dir : Dir) :
    ((Levels.mk false false dout dir).afterAll (eventsOf ((transaction cmd isRead body).take n))).clk = false := by
  have hfront : n = (headEntries cmd isRead ++ body).length := by
    rw [transaction, List.length_append] at hn
    exact Nat.add_right_cancel hn
  rw [transaction, List.take_left' hfront.symm, eventsOf_append, afterAll_append, headEntries_afterAll]
  exact hbody.clkLow _ _ _

/-- The clock is low at each event of a transaction that moves CE (R247). -/
theorem transaction_clkLow_of_ce {cmd : Byte} {isRead : Bool} {body : List Entry} (hbody : DataPhase isRead body) {n : Nat}
    {e : Entry} {b : Bool} (he : (transaction cmd isRead body)[n]? = some e) (hce : e.event = .ce b) (dout : Bool) (dir : Dir) :
    ((Levels.mk false false dout dir).afterAll (eventsOf ((transaction cmd isRead body).take n))).clk = false := by
  rcases transaction_ce_place hbody he hce with rfl | hstop
  · rfl
  · exact transaction_clkLow_stop hbody hstop dout dir

end Sys2Proof.Machine

namespace Sys2Proof.Proofs

open Sys2Proof Sys2Proof.Machine

/-- Settles O55: the latches are those the events performed leave, and in a transaction these leave the clock low wherever CE moves. -/
theorem clockIsLowAtEveryEnableEvent : Obligations.ClockIsLowAtEveryEnableEvent := by
  intro s e b h hphase he hce
  obtain ⟨⟨_, _, -, -, -, -, -, hagrees⟩, -⟩ := busy_of_conforming h hphase
  obtain ⟨-, ⟨dout, dir, hlevels⟩, -⟩ := hagrees
  rw [operationTrace_eq] at he hlevels
  exact (congrArg Levels.clk hlevels).trans (transaction_clkLow_of_ce (dataPhase_operationBody s) he hce dout dir)

end Sys2Proof.Proofs
